-- ==== Sys2Proof/Word.lean ====
section
/-! DEFINITION. The widths of the core block's values (spec/10_state.md R20, spec/30_encoding.md R94). -/

namespace Sys2Proof

/-- A byte: a ring slot, a shift register, a packet byte (R24, R29, R37). -/
abbrev Byte := BitVec 8

/-- A 32-bit operation word (R94), also the width of the tick counters (R39, R43). -/
abbrev Word := BitVec 32

/-- A 16-bit register: accumulators, timer registers, overflow counters (R30, R34, R35, R40). -/
abbrev Half := BitVec 16

/-- A button set: bit 0 left, bit 1 right, bit 2 middle (R41). -/
abbrev Buttons := BitVec 3

end Sys2Proof
end

