-- ==== Sys2Proof/Syntax.lean ====
section
/-! DEFINITION. The operations of the core block as syntax: one constructor for each row of
spec/opcode_table.json (spec/30_encoding.md R97), and the sources that issue them
(spec/00_scope.md R6, spec/60_exceptions.md R238). -/

namespace Sys2Proof

/-- The two rings (R28); in an operation word `q = 0` is `rx` and `q = 1` is `tx` (R95). -/
inductive RingId where
  | rx
  | tx
deriving DecidableEq, Repr, Inhabited

/-- Where an operation comes from: the agents of R6, and the block itself, which invokes the
internal operations (R99). The last one is the model's own, see log 6. -/
inductive Issuer where
  /-- `A_RXE`, the PS/2 clock-edge agent. -/
  | rxe
  /-- `A_BT`, the bit-timer agent. -/
  | bt
  /-- `A_POLL`, the poll agent. -/
  | poll
  /-- `ENV`, the environment. -/
  | env
  /-- An internal operation's own word, as a trace records it (R99). -/
  | internal
deriving DecidableEq, Repr, Inhabited

/-- The 18 operations (R97), with operands of the widths of R95. -/
inductive Instr where
  /-- `RX_EDGE d`, format B. -/
  | rxEdge (d : Bool)
  /-- `RX_START`, format N. -/
  | rxStart
  /-- `RX_STOP`, format N. -/
  | rxStop
  /-- `RX_POLL`, format N. -/
  | rxPoll
  /-- `RX_READ n`, format W: `n` polls after the first. -/
  | rxRead (n : Half)
  /-- `TX_INIT n`, format W: `n` the compare value. -/
  | txInit (n : Half)
  /-- `TX_TEARDOWN`, format N. -/
  | txTeardown
  /-- `TX_ENQUEUE b`, format Y. -/
  | txEnqueue (b : Byte)
  /-- `BT_CLK`, format N. -/
  | btClk
  /-- `TX_TICK`, format N. -/
  | txTick
  /-- `ENC_REPORT L, R, M, dx, dy, wheel`, format R; the deltas are 8-bit patterns (s8). -/
  | encReport (l r m : Bool) (dx dy wheel : Byte)
  /-- `ENC_SEND`, format N. -/
  | encSend
  /-- `ENC_RESET`, format N. -/
  | encReset
  /-- `RB_RESET q`, format Q, internal. -/
  | rbReset (q : RingId)
  /-- `RB_PUSH q, b`, format QY, internal. -/
  | rbPush (q : RingId) (b : Byte)
  /-- `RB_POP q`, format Q, internal. -/
  | rbPop (q : RingId)
  /-- `RB_COUNT q`, format Q, internal. -/
  | rbCount (q : RingId)
  /-- `RESET`, format N. -/
  | reset
deriving DecidableEq, Repr

end Sys2Proof
end

