-- ==== Sys2Proof/Config.lean ====
section
/-! DEFINITION. The parameters fixed for a run (spec/00_scope.md R8 to R14, spec/10_state.md R44)
and the free values the spec leaves open. -/

namespace Sys2Proof

/-- `MODE` (R11). -/
inductive Mode where
  | twoButton
  | threeButton
  | wheelMouse
deriving DecidableEq, Repr, Inhabited

/-- `STOP_BITS ∈ {1, 2}` (R9). -/
inductive StopBits where
  | one
  | two
deriving DecidableEq, Repr, Inhabited

/-- `TIMER_LEVEL` (R14, R160). -/
inductive TimerLevel where
  | cycle
  | tick
deriving DecidableEq, Repr, Inhabited

/-- The parameters the rules read, fixed for a run (R44). Their ranges are `Config.wf`. -/
structure Config where
  /-- `RX_CAP_LOG2` (R8). -/
  rxCapLog2 : Nat
  /-- `TX_CAP_LOG2` (R8). -/
  txCapLog2 : Nat
  /-- `STOP_BITS` (R9). -/
  stopBits : StopBits
  /-- `MODE` (R11). -/
  mode : Mode
  /-- `TIMER_LEVEL` (R14). -/
  timerLevel : TimerLevel
deriving DecidableEq, Repr

/-- The configuration of `State.reset`: the defaults of R8, and for `STOP_BITS`, `MODE` and
`TIMER_LEVEL`, which are OPEN or parameters, the values the vectors of spec/95_test_vectors.md use.
DESIGN CHOICE (log 1), unsafe: no statement rests on it but one that says so. -/
def Config.vectors : Config :=
  { rxCapLog2 := 4, txCapLog2 := 4, stopBits := .one, mode := .wheelMouse, timerLevel := .tick }

/-- `F_BT`, the timer clock in Hz (R10): OPEN, and read by no rule (R270). Log 2. -/
opaque Config.fBt : Nat

/-- `RX_READ_BUDGET` (R14): the budget callers pass to `RX_READ`. OPEN for callers, and read by no
rule: the block sees only the operand. Log 2. -/
opaque Config.rxReadBudget : Half

/-- FREE VALUE: what slot `i` of ring `q` holds at power-on, "any value" (R29, I1). Log 10. -/
opaque Config.powerOnByte : RingId → Nat → Byte

/-- FREE VALUE: the words of an infinite operation sequence of source `a` (R100), numbered from 0: any
words at all. Log 3. -/
opaque Config.endlessWord : Issuer → Nat → Word

/-- FREE VALUE: whose turn the `k`-th turn is when no schedule says so: steps of different agents
interleave in any order (R7, R233). Log 4. -/
opaque Config.freeTurn : Nat → Issuer

end Sys2Proof
end

