-- ==== Sys2Proof/Machine/State.lean ====
section
/-! DEFINITION. The state of the core block (spec/10_state.md), the outcomes' names
(spec/60_exceptions.md) and the state after reset (spec/70_reset_and_hazards.md R250). Plain data. -/

namespace Sys2Proof.Machine

/-- Ring storage (R60): (slot, byte) pairs, slots strictly rising. An unlisted slot is one nothing
has written since power-on. Canonical form `Memory.wf` (Machine/Ops.lean); log 10. -/
abbrev Memory := List Host.Cell

/-- One ring (R28 to R30): `head` and `tail` count pushes and pops modulo `2^(N+1)` (log 11),
`buf` is the storage, `ovf` the overflow counter. -/
structure Ring where
  head : Nat
  tail : Nat
  buf : Memory
  ovf : Half
deriving DecidableEq, Repr

/-- BitFrameState (R27): `rx_bitpos` (R23), `rx_shift` (R24), `rx_parity` (R25), `rx_pbit` (R26).
`bitpos` is held as a u4, so that R144's fault can be said (log 12). -/
structure BitFrame where
  bitpos : BitVec 4
  shift : Byte
  parity : Bool
  pbit : Bool
deriving DecidableEq, Repr

/-- BitFrameState as `FrameReset()` leaves it (R27). -/
def BitFrame.initial : BitFrame := { bitpos := 0, shift := 0, parity := false, pbit := false }

/-- The non-fatal events (R224). -/
inductive Event where
  /-- Code 0x01: an edge carried 1 in AwaitStart (R221). -/
  | startError
  /-- Code 0x02: an edge carried 0 in Stop (R221). -/
  | stopError
  /-- Code 0x03: the parity check failed in Stop (R221). -/
  | parityError
  /-- Codes 0x04 (RX) and 0x05 (TX): a push of `b` on a full ring (R222). -/
  | overflow (q : RingId) (b : Byte)
  /-- Code 0x06: `RX_READ n` found the ring empty at all `n + 1` polls (R223). -/
  | timeout (n : Half)
deriving DecidableEq, Repr

/-- The results returned to the issuing agent (R225). -/
inductive Result where
  | ok
  | byte (b : Byte)
  | empty
  | timeout
  | dropped
  | count (c : Nat)
  | notDue
  | suppressed
  | sent (k : Nat)
deriving DecidableEq, Repr

/-- What is part-way of `A_POLL`'s non-atomic operations (R7, R102). -/
inductive PollSeq where
  /-- No `RX_READ` and no `ENC_SEND` is part-way. -/
  | idle
  /-- `RX_READ n` is part-way: one poll comes next and `left` polls may follow it (R142). -/
  | reading (n : Half) (left : Nat)
  /-- `ENC_SEND` is past its check step at tick `ts`: `pkt` is still to be pushed, `ok` bytes were
  stored; with `pkt` empty the commit step comes next (R191). -/
  | sending (ts : Word) (pkt : List Byte) (ok : Nat)
deriving DecidableEq, Repr

/-- How a source's sequence goes on after its listed words (R100, log 3). -/
inductive Rest where
  /-- The sequence is finite: it ends there. -/
  | ends
  /-- The sequence is infinite: the words `Config.endlessWord` of the source come, from number `k`. -/
  | endless (k : Nat)
deriving DecidableEq, Repr

/-- A source's operation sequence, finite or infinite (R100): listed words, and what comes after. -/
structure Program where
  words : List Word
  rest : Rest
deriving DecidableEq, Repr

/-- The finite sequence of the words `ws`. -/
def Program.finite (ws : List Word) : Program := { words := ws, rest := .ends }

/-- The MODEL's own: the operation words each source has still to issue (R100) and how their steps
interleave (R7). The program is not state of the block (R44); logs 3, 4, 6, 17. -/
structure Feed where
  rxe : Program
  bt : Program
  poll : Program
  env : Program
  internal : Program
  /-- Whose turn comes next, and after it, and so on. -/
  schedule : List Issuer
  /-- How many turns were taken: the argument of the free value `Config.freeTurn`. -/
  turns : Nat
  /-- Whose turn the last step was: the agent that `State.returned` went to. -/
  issuer : Issuer
deriving DecidableEq, Repr

/-- No source has a word to issue. -/
def Feed.empty : Feed :=
  { rxe := .finite [], bt := .finite [], poll := .finite [], env := .finite [],
    internal := .finite [], schedule := [], turns := 0, issuer := .env }

/-- The whole state: the registers of R20 in its order, the sequence `A_POLL` is in the middle of,
the observation of R224 and R225, the run's configuration (R44, log 1) and the agents' programs. -/
structure State where
  cfg : Config
  /-- `rx_armed` (R22). -/
  rxArmed : Bool
  /-- `rx_bitpos`, `rx_shift`, `rx_parity`, `rx_pbit` (R23 to R27). -/
  frame : BitFrame
  /-- `rx_head`, `rx_tail`, `rx_buf`, `rx_ovf` (R28 to R30). -/
  rx : Ring
  /-- `tx_armed` (R33). -/
  txArmed : Bool
  /-- `bt_compare` (R34). -/
  btCompare : Half
  /-- `bt_count` (R35). -/
  btCount : Half
  /-- `tx_state` (R36), held as a u4 so that R171's fault can be said (log 12). -/
  txState : BitVec 4
  /-- `tx_shift` (R37). -/
  txShift : Byte
  /-- `tx_line` (R38): true is mark. -/
  txLine : Bool
  /-- `tx_head`, `tx_tail`, `tx_buf`, `tx_ovf` (R28 to R30). -/
  tx : Ring
  /-- `tick_count` (R39). -/
  tickCount : Word
  /-- `acc_dx` (R40), two's complement. -/
  accDx : Half
  /-- `acc_dy` (R40), in the device's convention. -/
  accDy : Half
  /-- `acc_wheel` (R40). -/
  accWheel : Half
  /-- `cur_buttons` (R41). -/
  curButtons : Buttons
  /-- `last_buttons` (R42). -/
  lastButtons : Buttons
  /-- `last_send_tick` (R43). -/
  lastSendTick : Word
  /-- The `RX_READ` or `ENC_SEND` that is part-way (R102, R142, R191, R250). -/
  poll : PollSeq
  /-- The event history, oldest first: observation only (R224, log 16). -/
  events : List Event
  /-- The result the last step returned to its issuer; none where the step ended no operation
  (R225, log 17). -/
  returned : Option Result
  feed : Feed
deriving DecidableEq, Repr

/-- The two units that are armed (R226, R227) share the names of their rings; these are the two
sequencing registers (R45) a fault can name. -/
inductive SeqReg where
  /-- `rx_bitpos`. -/
  | rxBitpos
  /-- `tx_state`. -/
  | txState
deriving DecidableEq, Repr

/-- Why the machine stops with a fault (R226). Nothing is written. -/
inductive Fault where
  /-- Code 0x10, raised by `RX_START` (unit `rx`) and `TX_INIT` (unit `tx`) when the unit is already
  armed (R227). The spec's own fault: no difference from the hardware. -/
  | reinitWhileArmed (unit : RingId)
  /-- Code 0x11, raised by `RX_EDGE` and by a tick when the register holds 11 to 15 (R144, R171).
  The spec's own fault for a state no run reaches: safe. -/
  | unreachableState (reg : SeqReg)
deriving DecidableEq, Repr

/-- Why a word has no meaning (R228). Nothing is written; the run is marked (Machine/Run.lean). -/
inductive Refusal where
  /-- Code 0x20, from the decoder: the word matches no row of R97 (R98). The spec's own refusal. -/
  | reservedEncoding
  /-- Code 0x21, from the agent check: an internal operation, or the other timing level's, on an
  agent's port (R99). The spec's own refusal. -/
  | internalOperation
  /-- Code 0x22, from the agent check: the operation is another agent's (R100). The spec's own
  refusal. -/
  | wrongAgent
  /-- Raised by no arm: an operation without a meaning would be refused so (safe). -/
  | notModelled (mnemonic : String)
deriving DecidableEq, Repr

/-- The outcome of a step over this state. -/
abbrev Out := Host.Outcome State Fault Refusal

/-- A ring at power-on (R28 to R30): empty, not counted, its storage unwritten. -/
def Ring.powerOn : Ring := { head := 0, tail := 0, buf := [], ovf := 0 }

/-- The reset column of R20 under configuration `c`, with nothing part-way, no history and no
program. -/
def State.resetWith (c : Config) : State :=
  { cfg := c
    rxArmed := false
    frame := .initial
    rx := .powerOn
    txArmed := false
    btCompare := 0
    btCount := 0
    txState := 0
    txShift := 0
    txLine := true
    tx := .powerOn
    tickCount := 0
    accDx := 0
    accDy := 0
    accWheel := 0
    curButtons := 0
    lastButtons := 0
    lastSendTick := 0
    poll := .idle
    events := []
    returned := none
    feed := .empty }

/-- The machine right after reset (R250, R251), in the vectors' configuration (log 1). -/
def State.reset : State := State.resetWith Config.vectors

end Sys2Proof.Machine
end

