-- ==== Sys2Proof/Machine/Operands.lean ====
section
/-! DEFINITION. The arithmetic of operands and fields: the primitives of spec/00_scope.md R16, operand
assembly (spec/30_encoding.md R96), slots (spec/20_memory.md R61) and the parameters derived from the
configuration (spec/00_scope.md R8, R11, R12). -/

namespace Sys2Proof.Machine

/-- `clamp(v, lo, hi) = min(max(v, lo), hi)` on integers (R16). -/
def clamp (v lo hi : Int) : Int := min (max v lo) hi

/-- `sat_inc16(c)` (R16). -/
def satInc16 (c : Half) : Half := if c = 0xFFFF then 0xFFFF else c + 1

/-- `satadd(a, b) = clamp(a + b, -32767, 32767)` on 16-bit signed registers (R13, R16). -/
def satAdd (a b : Half) : Half := BitVec.ofInt 16 (clamp (a.toInt + b.toInt) (-32767) 32767)

/-- `sext_16` of an s8 operand (R16, R96). -/
def sext16 (v : Byte) : Half := v.signExtend 16

/-- `N_q`: the capacity exponent of ring `q` (R28). -/
def capLog2 (c : Config) (q : RingId) : Nat :=
  match q with
  | .rx => c.rxCapLog2
  | .tx => c.txCapLog2

/-- `CAP = 2^N` (R8, R29). -/
def cap (n : Nat) : Nat := 2 ^ n

/-- `2^W` with `W = N + 1`: what the indices count modulo (R28, R110). -/
def wrap (n : Nat) : Nat := 2 ^ (n + 1)

/-- `slot(idx) = idx[N-1:0]`, which is `idx mod CAP` (R61, R110). -/
def slot (n idx : Nat) : Nat := idx % cap n

/-- `(idx + 1) mod 2^W` (R112, R113). -/
def nextIndex (n idx : Nat) : Nat := (idx + 1) % wrap n

/-- `STOP_BITS` as a number (R9). -/
def stopBitCount (c : Config) : Nat :=
  match c.stopBits with
  | .one => 1
  | .two => 2

/-- `PKT_LEN(MODE)` (R11). -/
def pktLen (m : Mode) : Nat :=
  match m with
  | .twoButton => 3
  | .threeButton => 4
  | .wheelMouse => 4

/-- `PACKET_PERIOD(MODE) = PKT_LEN(MODE) × (8 + STOP_BITS)` bit ticks (R12). -/
def packetPeriod (c : Config) : Nat := pktLen c.mode * (8 + stopBitCount c)

/-- `{M, R, L}`: bit 2 middle, bit 1 right, bit 0 left (R41, R190). -/
def buttonSet (l r m : Bool) : Buttons :=
  BitVec.ofBool m ++ BitVec.ofBool r ++ BitVec.ofBool l

/-- `{d, v[7:1]}`: `d` enters at bit 7 and the other bits move down (R24, R133). -/
def shiftIn (d : Bool) (v : Byte) : Byte := BitVec.ofBool d ++ v.extractLsb' 1 7

/-- The 8-bit two's-complement pattern of the clamped value (R194, R195). -/
def delta8 (v : Int) : Byte := BitVec.ofInt 8 (clamp v (-127) 127)

end Sys2Proof.Machine
end

