-- ==== Sys2Proof/Machine/Flags.lean ====
section
/-! DEFINITION. The block has no condition codes; its status bits and the conditions its rules test
are here (spec/10_state.md R31, R46): the derived element count, the parity checks, the throttle and
the motion condition. -/

namespace Sys2Proof.Machine

/-- `count(q) = (q_head - q_tail) mod 2^(N+1)` (R31, R114), for indices of any value. -/
def Ring.count (n : Nat) (r : Ring) : Nat := (r.head + (wrap n - r.tail % wrap n)) % wrap n

/-- `empty(q)` (R31). -/
def Ring.isEmpty (n : Nat) (r : Ring) : Bool := r.count n == 0

/-- `full(q)` (R31). -/
def Ring.isFull (n : Nat) (r : Ring) : Bool := r.count n == cap n

/-- `rx_parity ^ d`: the running parity folds in a data bit (R25, R133). -/
def foldParity (p d : Bool) : Bool := p ^^ d

/-- `(rx_parity ^ rx_pbit) == 1`: the odd-parity check of the frame (R81, R136). -/
def BitFrame.parityGood (f : BitFrame) : Bool := f.parity ^^ f.pbit

/-- The ticks since the last send, `(ts - last_send_tick) mod 2^32` (R191, R192). -/
def State.sinceSend (s : State) : Nat := (s.tickCount - s.lastSendTick).toNat

/-- A send is due: at least `PACKET_PERIOD` ticks have passed (R192). -/
def State.sendDue (s : State) : Bool := !decide (s.sinceSend < packetPeriod s.cfg)

/-- `moving` of R191: the wheel counts only in WheelMouse mode (R193). -/
def State.moving (s : State) : Bool :=
  s.accDx != 0 || s.accDy != 0 || (s.cfg.mode == .wheelMouse && s.accWheel != 0)

/-- There is something to send: motion, or buttons other than the last-sent ones (R191, R193). -/
def State.worthSending (s : State) : Bool := s.moving || s.curButtons != s.lastButtons

/-- The byte a well-formed or corrupted frame ends in is taken: stop bit 1 and parity good (R136). -/
def BitFrame.accepts (f : BitFrame) (d : Bool) : Bool := d && f.parityGood

/-- The bit timer matches: `bt_count == bt_compare` (R170). -/
def State.timerMatch (s : State) : Bool := s.btCount == s.btCompare

end Sys2Proof.Machine
end

