-- ==== Sys2Proof/Machine/Ops.lean ====
section
/-! DEFINITION. The named operations over storage and registers that the meanings share: ring storage
(spec/20_memory.md), the ring primitives (spec/41_ring_buffer.md R111 to R114), `emit`, `return` and
`FrameReset` (spec/00_scope.md R17, spec/10_state.md R27). The block takes no exceptions: there is no
trap, no vector, no saved state and no return from one (spec/60_exceptions.md R220, R234, R235); a
fault or a refusal is an outcome that writes nothing. -/

namespace Sys2Proof.Machine

/-! ### Storage -/

/-- Every listed slot of `m` is at least `lo`, and the slots rise strictly. -/
def Memory.risesFrom : Nat → Memory → Bool
  | _, [] => true
  | lo, (a, _) :: rest => decide (lo ≤ a) && Memory.risesFrom (a + 1) rest

/-- The canonical form: slots strictly rising. An unlisted slot has no written value at all, so no
entry can equal what it reads as (log 10). -/
def Memory.wf (m : Memory) : Bool := Memory.risesFrom 0 m

/-- The byte written at slot `i`, if one was. -/
def Memory.read? : Memory → Nat → Option Byte
  | [], _ => none
  | (a, b) :: rest, i => if a = i then some b else Memory.read? rest i

/-- Write `b` at slot `i`, keeping the canonical form. -/
def Memory.write : Memory → Nat → Byte → Memory
  | [], i, b => [(i, b)]
  | (a, c) :: rest, i, b =>
      if i < a then (i, b) :: (a, c) :: rest
      else if i = a then (i, b) :: rest
      else (a, c) :: Memory.write rest i b

/-- `MemRead(q, i)` (R17, R63): the byte written there, or the free power-on byte (R29, log 10). -/
def memRead (q : RingId) (m : Memory) (i : Nat) : Byte :=
  (m.read? i).getD (Config.powerOnByte q i)

/-! ### Registers -/

/-- The ring `q` (R28). -/
def State.ring (s : State) (q : RingId) : Ring :=
  match q with
  | .rx => s.rx
  | .tx => s.tx

/-- `s` with ring `q` written. -/
def State.setRing (s : State) (q : RingId) (r : Ring) : State :=
  match q with
  | .rx => { s with rx := r }
  | .tx => { s with tx := r }

/-- `N_q` of the run's configuration (R28). -/
def State.capLog2 (s : State) (q : RingId) : Nat := Sys2Proof.Machine.capLog2 s.cfg q

/-- `emit Ev` (R17, R224): the event joins the history, and nothing else changes. -/
def State.emit (s : State) (e : Event) : State := { s with events := s.events ++ [e] }

/-- `return Res` (R17, R225): the result goes to the issuing agent, `s.feed.issuer`. -/
def State.ret (s : State) (r : Result) : State := { s with returned := some r }

/-- The step ends no operation: nothing is returned. -/
def State.noRet (s : State) : State := { s with returned := none }

/-- `FrameReset()` (R27). -/
def State.frameReset (s : State) : State := { s with frame := .initial }

/-! ### Ring primitives -/

/-- `RB_RESET q` (R111): both indices to 0; storage and overflow counter kept. -/
def Ring.reset (r : Ring) : Ring := { r with head := 0, tail := 0 }

/-- `RB_PUSH` on a ring with room (R112): the slot write, then the head update (R67). -/
def Ring.store (n : Nat) (r : Ring) (b : Byte) : Ring :=
  { r with buf := r.buf.write (slot n r.head) b, head := nextIndex n r.head }

/-- `RB_PUSH` on a full ring (R112): only the overflow counter. -/
def Ring.drop (r : Ring) : Ring := { r with ovf := satInc16 r.ovf }

/-- The byte `RB_POP` reads (R113). -/
def Ring.oldest (n : Nat) (q : RingId) (r : Ring) : Byte := memRead q r.buf (slot n r.tail)

/-- `RB_POP` on a ring that is not empty (R113): the tail moves on. -/
def Ring.advance (n : Nat) (r : Ring) : Ring := { r with tail := nextIndex n r.tail }

/-- `RB_RESET q` on the state (R111). -/
def State.resetRing (s : State) (q : RingId) : State := s.setRing q (s.ring q).reset

/-- `RB_PUSH q, b` (R112): `Dropped` with the event `Overflow(q, b)` on a full ring, else `Ok`. -/
def State.pushByte (s : State) (q : RingId) (b : Byte) : Result × State :=
  if (s.ring q).isFull (s.capLog2 q) then
    (.dropped, (s.setRing q (s.ring q).drop).emit (.overflow q b))
  else
    (.ok, s.setRing q ((s.ring q).store (s.capLog2 q) b))

/-- `RB_POP q` (R113): `Empty` with nothing written on an empty ring, else the oldest byte. -/
def State.popByte (s : State) (q : RingId) : Result × State :=
  if (s.ring q).isEmpty (s.capLog2 q) then (.empty, s)
  else (.byte ((s.ring q).oldest (s.capLog2 q) q), s.setRing q ((s.ring q).advance (s.capLog2 q)))

end Sys2Proof.Machine
end

