-- ==== Sys2Proof/Machine/Encoder.lean ====
section
/-! DEFINITION. The packet encoder (spec/44_packet_encoder.md). -/

namespace Sys2Proof.Machine

/-- `ENC_REPORT L, R, M, dx, dy, wheel` (R190): outside WheelMouse mode the wheel is ignored. -/
def execEncReport (l r m : Bool) (dx dy wheel : Byte) (s : State) : Out :=
  .next ({ s with
    accDx := satAdd s.accDx (sext16 dx)
    accDy := satAdd s.accDy (sext16 dy)
    accWheel :=
      match s.cfg.mode with
      | .wheelMouse => satAdd s.accWheel (sext16 wheel)
      | .twoButton => s.accWheel
      | .threeButton => s.accWheel
    curButtons := buttonSet l r m }.ret .ok)

/-- `byte0` (R194, R196): `0x40 | (L << 5) | (R << 4) | (dy8[7:6] << 2) | dx8[7:6]`. -/
def packetByte0 (buttons : Buttons) (dx8 dy8 : Byte) : Byte :=
  0x40 ||| (BitVec.ofBool (buttons.getLsbD 0)).setWidth 8 <<< 5
    ||| (BitVec.ofBool (buttons.getLsbD 1)).setWidth 8 <<< 4
    ||| (dy8.extractLsb' 6 2).setWidth 8 <<< 2
    ||| (dx8.extractLsb' 6 2).setWidth 8

/-- `byte1` and `byte2`: bits 5:0 of a delta's pattern (R194, R197). -/
def packetLow (d8 : Byte) : Byte := (d8.extractLsb' 0 6).setWidth 8

/-- `byte3` (R87, R198, R199): absent, the middle button at bit 5, or the middle button at bit 4
with the low four bits of the wheel sum. -/
def packetByte3 (mode : Mode) (buttons : Buttons) (aw : Half) : List Byte :=
  let m : Byte := (BitVec.ofBool (buttons.getLsbD 2)).setWidth 8
  match mode with
  | .twoButton => []
  | .threeButton => [m <<< 5]
  | .wheelMouse => [m <<< 4 ||| (aw.extractLsb' 0 4).setWidth 8]

/-- `ENCODE(mode, buttons, ax, ay, aw)` (R194); `dy` is negated and both deltas are clamped (R195). -/
def encodePacket (mode : Mode) (buttons : Buttons) (ax ay aw : Half) : List Byte :=
  let dx8 := delta8 ax.toInt
  let dy8 := delta8 (-ay.toInt)
  [packetByte0 buttons dx8 dy8, packetLow dx8, packetLow dy8] ++ packetByte3 mode buttons aw

/-- The packet of the aggregate as it stands (R191). -/
def State.packet (s : State) : List Byte :=
  encodePacket s.cfg.mode s.curButtons s.accDx s.accDy s.accWheel

/-- `ENC_SEND` (R191, R192): its check step. The pushes and the commit are later turns of `A_POLL`. -/
def execEncSend (s : State) : Out :=
  if s.sendDue then
    if s.worthSending then .next { s with poll := .sending s.tickCount s.packet 0 }.noRet
    else .next (s.ret .suppressed)
  else .next (s.ret .notDue)

/-- A push step of `ENC_SEND` (R191): a stored byte counts, a dropped one does not. -/
def State.sendPush (s : State) (ts : Word) (b : Byte) (rest : List Byte) (ok : Nat) : State :=
  match s.pushByte .tx b with
  | (.ok, t) => { t with poll := .sending ts rest (ok + 1) }.noRet
  | (_, t) => { t with poll := .sending ts rest ok }.noRet

/-- The commit step of `ENC_SEND` (R191, R193). -/
def State.sendCommit (s : State) (ts : Word) (ok : Nat) : State :=
  { s with
    accDx := 0
    accDy := 0
    accWheel := 0
    lastButtons := s.curButtons
    lastSendTick := ts
    poll := .idle }.ret (.sent ok)

/-- `ENC_RESET` (R200). -/
def execEncReset (s : State) : Out :=
  .next ({ s with
    accDx := 0
    accDy := 0
    accWheel := 0
    curButtons := 0
    lastButtons := 0
    lastSendTick := s.tickCount }.ret .ok)

end Sys2Proof.Machine
end

