-- ==== Sys2Proof/Machine/Receiver.lean ====
section
/-! DEFINITION. The PS/2 receiver (spec/42_ps2_receiver.md). -/

namespace Sys2Proof.Machine

/-- `AwaitStartArm(d)` (R134): a 1 is ignored with the event `StartError`, a 0 begins the frame. -/
def State.awaitStartArm (s : State) (d : Bool) : State :=
  if d then s.emit .startError
  else { s with frame := { s.frame with bitpos := 1 } }

/-- `BitArm(d)` (R133). -/
def State.bitArm (s : State) (d : Bool) : State :=
  { s with frame :=
      { s.frame with
        shift := shiftIn d s.frame.shift
        parity := foldParity s.frame.parity d
        bitpos := s.frame.bitpos + 1 } }

/-- `ParityArm(d)` (R135). -/
def State.parityArm (s : State) (d : Bool) : State :=
  { s with frame := { s.frame with pbit := d, bitpos := 10 } }

/-- `StopArm(d)` (R136, R137): a valid frame's byte is pushed, an invalid one discarded with one
event, `StopError` before `ParityError`; either way `FrameReset()`. -/
def State.stopArm (s : State) (d : Bool) : State :=
  if s.frame.accepts d then ((s.pushByte .rx s.frame.shift).2).frameReset
  else (s.emit (if d then .parityError else .stopError)).frameReset

/-- The receiver's one transition for an armed edge (R130, R132); `none` for `rx_bitpos` 11 to 15
(R144). -/
def State.edgeArm (s : State) (d : Bool) : Option State :=
  let p := s.frame.bitpos.toNat
  if p = 0 then some (s.awaitStartArm d)
  else if p ≤ 8 then some (s.bitArm d)
  else if p = 9 then some (s.parityArm d)
  else if p = 10 then some (s.stopArm d)
  else none

/-- `RX_EDGE d` (R130); a disarmed edge is lost (R131). -/
def execRxEdge (d : Bool) (s : State) : Out :=
  if s.rxArmed then
    match s.edgeArm d with
    | some t => .next (t.ret .ok)
    | none => .fault (.unreachableState .rxBitpos)
  else .next (s.ret .ok)

/-- `RX_STOP` (R139): the ring is kept. -/
def execRxStop (s : State) : Out :=
  .next (({ s with rxArmed := false }).frameReset.ret .ok)

/-- `RX_START` (R140). -/
def execRxStart (s : State) : Out :=
  if s.rxArmed then .fault (.reinitWhileArmed .rx)
  else .next ({ (s.resetRing .rx).frameReset with rxArmed := true }.ret .ok)

/-- `RX_POLL` (R141): one attempt to take a byte. -/
def execRxPoll (s : State) : Out :=
  let p := s.popByte .rx
  .next (p.2.ret p.1)

/-- One poll of `RX_READ n` with `left` polls after it (R142). A byte ends the read; the last empty
poll emits `Timeout(n)` and returns `Timeout` in its own step (log 14). -/
def State.readPoll (s : State) (n : Half) (left : Nat) : State :=
  match s.popByte .rx with
  | (.byte b, t) => { t with poll := .idle }.ret (.byte b)
  | (_, t) =>
    match left with
    | 0 => ({ t with poll := .idle }.emit (.timeout n)).ret .timeout
    | k + 1 => { t with poll := .reading n k }.noRet

/-- `RX_READ n` (R142): its first poll; the others are later turns of `A_POLL`. -/
def execRxRead (n : Half) (s : State) : Out := .next (s.readPoll n n.toNat)

end Sys2Proof.Machine
end

