-- ==== Sys2Proof/Machine/ResetOp.lean ====
section
/-! DEFINITION. The environment's `RESET` (spec/70_reset_and_hazards.md R250). -/

namespace Sys2Proof.Machine

/-- A ring under `RESET`: empty and uncounted; its storage is not written (R250). -/
def Ring.cleared (r : Ring) : Ring := { r.reset with ovf := 0 }

/-- `RESET`'s writes (R250), in its order: every register to its reset value, whatever `RX_READ` or
`ENC_SEND` was part-way cancelled. Ring storage, configuration, event history and the agents' programs
are not written (log 16). -/
def State.resetBlock (s : State) : State :=
  { s with
    rxArmed := false
    frame := .initial
    rx := s.rx.cleared
    txArmed := false
    btCompare := 0
    btCount := 0
    txState := 0
    txShift := 0
    txLine := true
    tx := s.tx.cleared
    tickCount := 0
    accDx := 0
    accDy := 0
    accWheel := 0
    curButtons := 0
    lastButtons := 0
    lastSendTick := 0
    poll := .idle }

/-- `RESET` (R250). -/
def execReset (s : State) : Out := .next (s.resetBlock.ret .ok)

end Sys2Proof.Machine
end

