-- ==== Sys2Proof/Machine/RingBuffer.lean ====
section
/-! DEFINITION. The meanings of the four ring primitives (spec/41_ring_buffer.md R111 to R114). That an
agent may not issue them is the agent check's matter (Machine/Issue.lean, R99). -/

namespace Sys2Proof.Machine

/-- `RB_RESET q` (R111). -/
def execRbReset (q : RingId) (s : State) : Out := .next ((s.resetRing q).ret .ok)

/-- `RB_PUSH q, b` (R112). -/
def execRbPush (q : RingId) (b : Byte) (s : State) : Out :=
  let p := s.pushByte q b
  .next (p.2.ret p.1)

/-- `RB_POP q` (R113). -/
def execRbPop (q : RingId) (s : State) : Out :=
  let p := s.popByte q
  .next (p.2.ret p.1)

/-- `RB_COUNT q` (R114). -/
def execRbCount (q : RingId) (s : State) : Out :=
  .next (s.ret (.count ((s.ring q).count (s.capLog2 q))))

end Sys2Proof.Machine
end

