-- ==== Sys2Proof/Machine/Transmitter.lean ====
section
/-! DEFINITION. The software-UART transmitter and the bit timer (spec/43_serial_transmitter.md). -/

namespace Sys2Proof.Machine

/-- Frame state and line as `TX_INIT` and `TX_TEARDOWN` leave them: TX ring empty, Idle, `tx_shift`
0, line at mark, `bt_count` 0 (R161, R162). -/
def State.txQuiet (s : State) : State :=
  { s.resetRing .tx with btCount := 0, txState := 0, txShift := 0, txLine := true }

/-- `TX_INIT n` (R161). -/
def execTxInit (n : Half) (s : State) : Out :=
  if s.txArmed then .fault (.reinitWhileArmed .tx)
  else .next ({ s.txQuiet with btCompare := n, txArmed := true }.ret .ok)

/-- `TX_TEARDOWN` (R162): `bt_compare` is kept. -/
def execTxTeardown (s : State) : Out :=
  .next ({ s.txQuiet with txArmed := false }.ret .ok)

/-- `TX_ENQUEUE b` (R163). -/
def execTxEnqueue (b : Byte) (s : State) : Out :=
  let p := s.pushByte .tx b
  .next (p.2.ret p.1)

/-- `NextByte()` (R172). -/
def State.nextByte (s : State) : State :=
  match s.popByte .tx with
  | (.byte b, t) => { t with txShift := b, txLine := false, txState := 1 }
  | (_, t) => { t with txLine := true, txState := 0 }

/-- `DataOut()` and the next state (R171, R174, R175). -/
def State.dataOut (s : State) (next : BitVec 4) : State :=
  { s with txLine := s.txShift.getLsbD 0, txShift := s.txShift >>> 1, txState := next }

/-- The transmit state machine's arm for the state it is in (R171 to R178); `none` for `tx_state`
11 to 15. -/
def State.txArm (s : State) : Option State :=
  let p := s.txState.toNat
  if p = 0 then some s.nextByte
  else if p ≤ 7 then some (s.dataOut (s.txState + 1))
  else if p = 8 then some { s with txLine := true, txState := 9 }
  else if p = 9 then
    match s.cfg.stopBits with
    | .two => some { s with txLine := true, txState := 10 }
    | .one => some s.nextByte
  else if p = 10 then some s.nextByte
  else none

/-- `tick_count <- (tick_count + 1) mod 2^32` (R180). -/
def State.countTick (s : State) : State := { s with tickCount := s.tickCount + 1 }

/-- `bt_count <- 0` (R170). -/
def State.clearBtCount (s : State) : State := { s with btCount := 0 }

/-- `TxTick()` (R171): nothing while disarmed, else `tick_count` moves on before the arm (R180). -/
def State.txTick (s : State) : Option State :=
  if s.txArmed then s.countTick.txArm else some s

/-- `TX_TICK` (R171). -/
def execTxTick (s : State) : Out :=
  match s.txTick with
  | some t => .next (t.ret .ok)
  | none => .fault (.unreachableState .txState)

/-- `BT_CLK` (R170): one cycle of the timer clock, together with the tick it may fire. -/
def execBtClk (s : State) : Out :=
  if s.txArmed then
    if s.timerMatch then
      match s.clearBtCount.txTick with
      | some t => .next (t.ret .ok)
      | none => .fault (.unreachableState .txState)
    else .next ({ s with btCount := s.btCount + 1 }.ret .ok)
  else .next (s.ret .ok)

end Sys2Proof.Machine
end

