-- ==== Sys2Proof/Machine/Dispatch.lean ====
section
/-! DEFINITION. One arm for each operation (spec/30_encoding.md R97). -/

namespace Sys2Proof.Machine

def exec (i : Instr) (s : State) : Host.Outcome State Fault Refusal :=
  match i with
  | .rxEdge d => Sys2Proof.Machine.execRxEdge d s
  | .rxStart => Sys2Proof.Machine.execRxStart s
  | .rxStop => Sys2Proof.Machine.execRxStop s
  | .rxPoll => Sys2Proof.Machine.execRxPoll s
  | .rxRead n => Sys2Proof.Machine.execRxRead n s
  | .txInit n => Sys2Proof.Machine.execTxInit n s
  | .txTeardown => Sys2Proof.Machine.execTxTeardown s
  | .txEnqueue b => Sys2Proof.Machine.execTxEnqueue b s
  | .btClk => Sys2Proof.Machine.execBtClk s
  | .txTick => Sys2Proof.Machine.execTxTick s
  | .encReport l r m dx dy wheel => Sys2Proof.Machine.execEncReport l r m dx dy wheel s
  | .encSend => Sys2Proof.Machine.execEncSend s
  | .encReset => Sys2Proof.Machine.execEncReset s
  | .rbReset q => Sys2Proof.Machine.execRbReset q s
  | .rbPush q b => Sys2Proof.Machine.execRbPush q b s
  | .rbPop q => Sys2Proof.Machine.execRbPop q s
  | .rbCount q => Sys2Proof.Machine.execRbCount q s
  | .reset => Sys2Proof.Machine.execReset s

end Sys2Proof.Machine
end

