-- ==== Sys2Proof/WellFormed.lean ====
section
/-! DEFINITION. What is well formed. Every term of `Instr` is a well-formed operation, because its
operands have exactly the widths of spec/30_encoding.md R95; what needs a check is the configuration
(spec/00_scope.md R8). Which source may issue an operation is no matter of form but the agent check of
spec/60_exceptions.md R229, in Machine/Issue.lean. -/

namespace Sys2Proof

/-- `1 ≤ RX_CAP_LOG2 ≤ 8` (R8). -/
abbrev Config.rxCapOk (c : Config) : Prop := 1 ≤ c.rxCapLog2 ∧ c.rxCapLog2 ≤ 8

/-- `2 ≤ TX_CAP_LOG2 ≤ 8`, so that one 4-byte packet fits (R8). -/
abbrev Config.txCapOk (c : Config) : Prop := 2 ≤ c.txCapLog2 ∧ c.txCapLog2 ≤ 8

/-- The configuration is one R8 allows. -/
abbrev Config.wf (c : Config) : Prop := c.rxCapOk ∧ c.txCapOk

end Sys2Proof
end

