-- ==== Sys2Proof/Decode.lean ====
section
/-! DEFINITION. The decoder of 32-bit operation words and, after it, the encoder
(spec/30_encoding.md R94 to R98, R103). A word is delivered at a port as one 32-bit value; it has no
byte order (R64, log 20). -/

namespace Sys2Proof

/-- One row of the opcode map (R97): `w` matches when `w & mask = pattern`. -/
structure OpRow where
  mnemonic : String
  pattern : Word
  mask : Word
  build : Word → Instr

/-- `(w & mask) == match` (R97). -/
def OpRow.hits (r : OpRow) (w : Word) : Bool := w &&& r.mask == r.pattern

/-- `d = w[0]` (format B, R95). -/
def Word.fieldD (w : Word) : Bool := w.getLsbD 0

/-- `b = w[7:0]` (formats Y, QY and the `wheel` of R, R95). -/
def Word.fieldB (w : Word) : Byte := w.extractLsb' 0 8

/-- `n = w[15:0]` (format W, R95). -/
def Word.fieldN (w : Word) : Half := w.extractLsb' 0 16

/-- `q = w[8]`: 0 the RX ring, 1 the TX ring (formats Q and QY, R95). -/
def Word.fieldQ (w : Word) : RingId := if w.getLsbD 8 then .tx else .rx

/-- `M = w[26]`, `R = w[25]`, `L = w[24]`, `dx = w[23:16]`, `dy = w[15:8]`, `wheel = w[7:0]`
(format R, R95). -/
def Word.fieldReport (w : Word) : Instr :=
  .encReport (w.getLsbD 24) (w.getLsbD 25) (w.getLsbD 26)
    (w.extractLsb' 16 8) (w.extractLsb' 8 8) (w.extractLsb' 0 8)

/-- The rows of the receiver (R97). -/
def opRowsRx : List OpRow := [
  ⟨"RX_EDGE", 0x08000000, 0xFFFFFFFE, fun w => .rxEdge (Word.fieldD w)⟩,
  ⟨"RX_START", 0x10000000, 0xFFFFFFFF, fun _ => .rxStart⟩,
  ⟨"RX_STOP", 0x18000000, 0xFFFFFFFF, fun _ => .rxStop⟩,
  ⟨"RX_POLL", 0x20000000, 0xFFFFFFFF, fun _ => .rxPoll⟩,
  ⟨"RX_READ", 0x28000000, 0xFFFF0000, fun w => .rxRead (Word.fieldN w)⟩]

/-- The rows of the transmitter and the bit timer (R97). -/
def opRowsTx : List OpRow := [
  ⟨"TX_INIT", 0x40000000, 0xFFFF0000, fun w => .txInit (Word.fieldN w)⟩,
  ⟨"TX_TEARDOWN", 0x48000000, 0xFFFFFFFF, fun _ => .txTeardown⟩,
  ⟨"TX_ENQUEUE", 0x50000000, 0xFFFFFF00, fun w => .txEnqueue (Word.fieldB w)⟩,
  ⟨"BT_CLK", 0x58000000, 0xFFFFFFFF, fun _ => .btClk⟩,
  ⟨"TX_TICK", 0x60000000, 0xFFFFFFFF, fun _ => .txTick⟩]

/-- The rows of the packet encoder (R97). -/
def opRowsEnc : List OpRow := [
  ⟨"ENC_REPORT", 0x80000000, 0xF8000000, Word.fieldReport⟩,
  ⟨"ENC_SEND", 0x88000000, 0xFFFFFFFF, fun _ => .encSend⟩,
  ⟨"ENC_RESET", 0x90000000, 0xFFFFFFFF, fun _ => .encReset⟩]

/-- The rows of the ring primitives and of the reset (R97). -/
def opRowsRing : List OpRow := [
  ⟨"RB_RESET", 0xC0000000, 0xFFFFFEFF, fun w => .rbReset (Word.fieldQ w)⟩,
  ⟨"RB_PUSH", 0xC8000000, 0xFFFFFE00, fun w => .rbPush (Word.fieldQ w) (Word.fieldB w)⟩,
  ⟨"RB_POP", 0xD0000000, 0xFFFFFEFF, fun w => .rbPop (Word.fieldQ w)⟩,
  ⟨"RB_COUNT", 0xD8000000, 0xFFFFFEFF, fun w => .rbCount (Word.fieldQ w)⟩,
  ⟨"RESET", 0xF8000000, 0xFFFFFFFF, fun _ => .reset⟩]

/-- The opcode map, in the table's order (R97). -/
def opTable : List OpRow := opRowsRx ++ opRowsTx ++ opRowsEnc ++ opRowsRing

/-- The total decoder (R103): the operation of the one row that matches, or `none`, which the step
refuses as `ReservedEncoding` (R98). -/
def decodeWord (w : Word) : Option Instr :=
  (opTable.find? (fun r => r.hits w)).map (fun r => r.build w)

/-- What the decoder reads from an opcode-table row's instruction: `nbits` bits of `w`, every
higher bit 0. The one operation word is 32 bits (R94), so a longer pattern with a bit set above
bit 31 is no operation. -/
def decodeTableWord (nbits w : Nat) : Option Instr :=
  if w % 2 ^ nbits < 2 ^ 32 then decodeWord (BitVec.ofNat 32 (w % 2 ^ nbits)) else none

/-- The ring operand in its place, `q << 8` (R95). -/
def RingId.bits (q : RingId) : Word :=
  match q with
  | .rx => 0x000
  | .tx => 0x100

/-- One operand bit in its place, `b << n` (R95). -/
def bitAt (b : Bool) (n : Nat) : Word := if b then 1#32 <<< n else 0

/-- The operation word of an operation (R95, R97, and the word each operation's own rule gives). -/
def encode (i : Instr) : Word :=
  match i with
  | .rxEdge d => 0x08000000 ||| bitAt d 0
  | .rxStart => 0x10000000
  | .rxStop => 0x18000000
  | .rxPoll => 0x20000000
  | .rxRead n => 0x28000000 ||| n.setWidth 32
  | .txInit n => 0x40000000 ||| n.setWidth 32
  | .txTeardown => 0x48000000
  | .txEnqueue b => 0x50000000 ||| b.setWidth 32
  | .btClk => 0x58000000
  | .txTick => 0x60000000
  | .encReport l r m dx dy wheel =>
      0x80000000 ||| bitAt m 26 ||| bitAt r 25 ||| bitAt l 24
        ||| dx.setWidth 32 <<< 16 ||| dy.setWidth 32 <<< 8 ||| wheel.setWidth 32
  | .encSend => 0x88000000
  | .encReset => 0x90000000
  | .rbReset q => 0xC0000000 ||| q.bits
  | .rbPush q b => 0xC8000000 ||| q.bits ||| b.setWidth 32
  | .rbPop q => 0xD0000000 ||| q.bits
  | .rbCount q => 0xD8000000 ||| q.bits
  | .reset => 0xF8000000

end Sys2Proof
end

