-- ==== Sys2Proof/Machine/Issue.lean ====
section
/-! DEFINITION. The agent check: who may issue which operation at which timing level
(spec/30_encoding.md R97, R99, R100; spec/60_exceptions.md R228, R229). -/

namespace Sys2Proof.Machine

/-- Who issues an operation at a timing level. -/
inductive IssueRule where
  /-- One agent only (R97). -/
  | only (a : Issuer)
  /-- Internal: no agent's port (R99). -/
  | internalOnly
  /-- The operation of the other timing level, which nothing issues or invokes (R99, R160). -/
  | otherLevel
deriving DecidableEq, Repr

/-- The "issued by" column of R97 at timing level `lvl`. -/
def issueRule (lvl : TimerLevel) (i : Instr) : IssueRule :=
  match i with
  | .rxEdge _ => .only .rxe
  | .rxStart => .only .poll
  | .rxStop => .only .poll
  | .rxPoll => .only .poll
  | .rxRead _ => .only .poll
  | .txInit _ => .only .poll
  | .txTeardown => .only .poll
  | .txEnqueue _ => .only .poll
  | .btClk =>
    match lvl with
    | .cycle => .only .bt
    | .tick => .otherLevel
  | .txTick =>
    match lvl with
    | .cycle => .internalOnly
    | .tick => .only .bt
  | .encReport _ _ _ _ _ _ => .only .poll
  | .encSend => .only .poll
  | .encReset => .only .poll
  | .rbReset _ => .internalOnly
  | .rbPush _ _ => .internalOnly
  | .rbPop _ => .internalOnly
  | .rbCount _ => .internalOnly
  | .reset => .only .env

/-- The agent check (R229 item 2): `none` lets the operation through. `InternalOperation` is looked
at before `WrongAgent`, as R229 lists them (log 7). -/
def issueCheck (lvl : TimerLevel) (a : Issuer) (i : Instr) : Option Refusal :=
  match issueRule lvl i with
  | .only b => if a = b then none else some .wrongAgent
  | .internalOnly => if a = .internal then none else some .internalOperation
  | .otherLevel => some .internalOperation

/-- The source whose sequence an operation's word belongs to (R97; `internal` for the internal
operations, log 6). -/
def homeIssuer (i : Instr) : Issuer :=
  match i with
  | .rxEdge _ => .rxe
  | .rxStart => .poll
  | .rxStop => .poll
  | .rxPoll => .poll
  | .rxRead _ => .poll
  | .txInit _ => .poll
  | .txTeardown => .poll
  | .txEnqueue _ => .poll
  | .btClk => .bt
  | .txTick => .bt
  | .encReport _ _ _ _ _ _ => .poll
  | .encSend => .poll
  | .encReset => .poll
  | .rbReset _ => .internal
  | .rbPush _ _ => .internal
  | .rbPop _ => .internal
  | .rbCount _ => .internal
  | .reset => .env

/-- The timing level at which an operation can be issued on a port: `lvl` itself but for the two
operations that belong to one level (R99, R160). -/
def homeLevel (lvl : TimerLevel) (i : Instr) : TimerLevel :=
  match i with
  | .btClk => .cycle
  | .txTick => .tick
  | .rxEdge _ => lvl
  | .rxStart => lvl
  | .rxStop => lvl
  | .rxPoll => lvl
  | .rxRead _ => lvl
  | .txInit _ => lvl
  | .txTeardown => lvl
  | .txEnqueue _ => lvl
  | .encReport _ _ _ _ _ _ => lvl
  | .encSend => lvl
  | .encReset => lvl
  | .rbReset _ => lvl
  | .rbPush _ _ => lvl
  | .rbPop _ => lvl
  | .rbCount _ => lvl
  | .reset => lvl

end Sys2Proof.Machine
end

