-- ==== Sys2Proof/Machine/Feed.lean ====
section
/-! DEFINITION. The agents' operation sequences and their interleaving (spec/00_scope.md R7,
spec/30_encoding.md R100), the model's stand-in for fetching: logs 3, 4, 5, 6, 21. -/

namespace Sys2Proof.Machine

/-- The next word of source `a`'s sequence `p`; none where the sequence has ended (R100). -/
def Program.head (a : Issuer) (p : Program) : Option Word :=
  match p.words, p.rest with
  | w :: _, _ => some w
  | [], .endless k => some (Config.endlessWord a k)
  | [], .ends => none

/-- The sequence after its next word (R100): an ended one stays ended. -/
def Program.tail (p : Program) : Program :=
  match p.words, p.rest with
  | _ :: ws, r => { words := ws, rest := r }
  | [], .endless k => { words := [], rest := .endless (k + 1) }
  | [], .ends => p

/-- The sequence with the word `w` before it. -/
def Program.cons (w : Word) (p : Program) : Program := { p with words := w :: p.words }

/-- Nothing is left of the sequence (R242); an infinite one never ends. -/
def Program.ended (p : Program) : Bool := p.words.isEmpty && p.rest == .ends

/-- The sequence source `a` has still to issue (R100). -/
def Feed.program (f : Feed) (a : Issuer) : Program :=
  match a with
  | .rxe => f.rxe
  | .bt => f.bt
  | .poll => f.poll
  | .env => f.env
  | .internal => f.internal

/-- `f` with source `a`'s sequence replaced. -/
def Feed.setProgram (f : Feed) (a : Issuer) (p : Program) : Feed :=
  match a with
  | .rxe => { f with rxe := p }
  | .bt => { f with bt := p }
  | .poll => { f with poll := p }
  | .env => { f with env := p }
  | .internal => { f with internal := p }

/-- The next word of source `a`'s sequence (R100). -/
def Feed.nextWord (f : Feed) (a : Issuer) : Option Word := (f.program a).head a

/-- Whose turn comes next: as the schedule says, past its end a free choice (R7, R233, log 4). -/
def Feed.nextIssuer (f : Feed) : Issuer :=
  match f.schedule with
  | a :: _ => a
  | [] => Config.freeTurn f.turns

/-- The turn of source `a` is taken. -/
def Feed.turn (f : Feed) (a : Issuer) : Feed :=
  { f with schedule := f.schedule.tail, turns := f.turns + 1, issuer := a }

/-- Source `a` issues its next word: the turn is taken and the word leaves its sequence. -/
def Feed.issue (f : Feed) (a : Issuer) : Feed := (f.setProgram a (f.program a).tail).turn a

/-- The state as a step without a word finds it: the turn taken, nothing returned yet. -/
def State.turn (s : State) (a : Issuer) : State :=
  { s with feed := s.feed.turn a, returned := none }

/-- The state as an issued operation finds it: the turn taken, its word gone from the sequence,
nothing returned yet. -/
def State.issue (s : State) (a : Issuer) : State :=
  { s with feed := s.feed.issue a, returned := none }

/-- `A_POLL` is in the middle of `RX_READ` or `ENC_SEND`, so `a`'s turn is that sequence's next step
and issues no word (R191: `A_POLL` is one sequential agent). -/
def State.midSequence (s : State) (a : Issuer) : Bool := a == .poll && s.poll != .idle

/-- The word that `a`'s turn issues. -/
def State.wordFor (s : State) (a : Issuer) : Option Word :=
  if s.midSequence a then none else s.feed.nextWord a

/-- Put the word `w` first in its source's sequence, give that source the next turn with nothing
part-way before it, at a timing level at which the operation can be issued (log 21). A word that is
no operation goes to `A_POLL`. -/
def State.placeWord (s : State) (w : Word) : State :=
  let a := ((decodeWord w).map homeIssuer).getD .poll
  let f := s.feed.setProgram a ((s.feed.program a).cons w)
  { s with
    cfg := { s.cfg with
      timerLevel := ((decodeWord w).map (homeLevel s.cfg.timerLevel)).getD s.cfg.timerLevel }
    poll := if a = .poll then .idle else s.poll
    feed := { f with schedule := a :: f.schedule } }

end Sys2Proof.Machine
end

