-- ==== Sys2Proof/Machine/Turn.lean ====
section
/-! DEFINITION. One turn of one agent (spec/00_scope.md R7, R17; spec/60_exceptions.md R220, R229): the
checks in R229's order, then the operation. -/

namespace Sys2Proof.Machine

/-- The next step of the sequence `A_POLL` is in the middle of (R102, R142, R191). -/
def State.continuePoll (s : State) : State :=
  match s.poll with
  | .idle => s
  | .reading n left => s.readPoll n left
  | .sending ts (b :: rest) ok => s.sendPush ts b rest ok
  | .sending ts [] ok => s.sendCommit ts ok

/-- Source `a` issues the word `w` (R229): decoding, then the agent check, then the operation with its
fault checks. -/
def issueWord (a : Issuer) (w : Word) (s : State) : Out :=
  match decodeWord w with
  | none => .refused .reservedEncoding
  | some i =>
    match issueCheck s.cfg.timerLevel a i with
    | some r => .refused r
    | none => exec i (s.issue a)

/-- The turn of source `a`: the next step of a sequence that is part-way, or its next word, or, with
nothing to issue, nothing but the turn itself (log 5). -/
def takeTurn (a : Issuer) (s : State) : Out :=
  if s.midSequence a then .next (s.turn a).continuePoll
  else
    match s.feed.nextWord a with
    | some w => issueWord a w s
    | none => .next (s.turn a)

end Sys2Proof.Machine
end

