-- ==== Sys2Proof/Machine/Step.lean ====
section
/-! DEFINITION. The step: one atomic step of the agent whose turn it is (spec/00_scope.md R7). -/

namespace Sys2Proof.Machine

/-- One step of the block. -/
def step (s : State) : Host.Outcome State Fault Refusal := takeTurn s.feed.nextIssuer s

/-- `s` with one operation word, its low `nbits` bits of `w`, as the next word issued. -/
def State.withFetchWord (s : State) (nbits w : Nat) : State :=
  s.placeWord (BitVec.ofNat 32 (w % 2 ^ nbits))

end Sys2Proof.Machine
end

