-- ==== Sys2Proof/Machine/Codes.lean ====
section
/-! DEFINITION. The numeric codes of events, results, faults and refusals (spec/60_exceptions.md R224 to
R228). -/

namespace Sys2Proof.Machine

/-- The event codes (R224). -/
def Event.code (e : Event) : Byte :=
  match e with
  | .startError => 0x01
  | .stopError => 0x02
  | .parityError => 0x03
  | .overflow .rx _ => 0x04
  | .overflow .tx _ => 0x05
  | .timeout _ => 0x06

/-- The result codes (R225). -/
def Result.code (r : Result) : Byte :=
  match r with
  | .ok => 0x00
  | .byte _ => 0x01
  | .empty => 0x02
  | .timeout => 0x03
  | .dropped => 0x04
  | .count _ => 0x05
  | .notDue => 0x06
  | .suppressed => 0x07
  | .sent _ => 0x08

/-- The fault codes (R226). -/
def Fault.code (f : Fault) : Byte :=
  match f with
  | .reinitWhileArmed _ => 0x10
  | .unreachableState _ => 0x11

/-- The refusal codes (R228); any other refusal has none. -/
def Refusal.code (r : Refusal) : Option Byte :=
  match r with
  | .reservedEncoding => some 0x20
  | .internalOperation => some 0x21
  | .wrongAgent => some 0x22
  | _ => none

end Sys2Proof.Machine
end

