-- ==== Sys2Proof/Machine/Run.lean ====
section
/-! DEFINITION. A run of the block (spec/60_exceptions.md R220, R226, R228, R242): the state, the recorded
fault that ends it, and the refusals that mark it. -/

namespace Sys2Proof.Machine

/-- A fault is recorded with its code and the operation word (R226). -/
structure FaultRecord where
  fault : Fault
  code : Byte
  word : Option Word
deriving DecidableEq, Repr

/-- A refused word and why (R228). -/
structure RefusalRecord where
  refusal : Refusal
  word : Option Word
deriving DecidableEq, Repr

/-- A run: where it stands, whether a fault ended it, and what was refused in it, oldest first. -/
structure Run where
  state : State
  fault : Option FaultRecord
  refusals : List RefusalRecord
deriving DecidableEq, Repr

/-- A run that begins at `s`. -/
def Run.start (s : State) : Run := { state := s, fault := none, refusals := [] }

/-- The mark of R228, kept for the whole run. -/
def Run.markedRefused (r : Run) : Bool := !r.refusals.isEmpty

/-- The operation word the next step issues. -/
def State.nextWord (s : State) : Option Word := s.wordFor s.feed.nextIssuer

/-- The state after a refused word: its agent has issued it, and nothing of the block is written
(R228). -/
def State.skipRefused (s : State) : State := s.issue s.feed.nextIssuer

/-- One step of a run (R220): a fault writes nothing and is final, never cleared, not even by `RESET`
(R226); a refusal writes nothing and marks the run, which goes on (R228, log 8). -/
def Run.advance (r : Run) : Run :=
  match r.fault with
  | some _ => r
  | none =>
    match step r.state with
    | .next t => { r with state := t }
    | .fault f => { r with fault := some { fault := f, code := f.code, word := r.state.nextWord } }
    | .refused q =>
      { r with
        state := r.state.skipRefused
        refusals := r.refusals ++ [{ refusal := q, word := r.state.nextWord }] }

/-- `k` steps of a run. -/
def Run.advanceN : Nat → Run → Run
  | 0, r => r
  | k + 1, r => Run.advanceN k r.advance

/-- No agent has an operation left to issue and no `RX_READ` or `ENC_SEND` is part-way (R242). -/
def State.finished (s : State) : Bool :=
  s.feed.rxe.ended && s.feed.bt.ended && s.feed.poll.ended && s.feed.env.ended
    && s.feed.internal.ended && s.poll == .idle

/-- The run has ended: at a fault, or because nothing is left to do (R242). -/
def Run.ended (r : Run) : Bool := r.fault.isSome || r.state.finished

/-- The `txd` port: the level of the serial line (R38, R48). -/
def State.txd (s : State) : Bool := s.txLine

end Sys2Proof.Machine
end

