-- ==== Sys2Proof/Safety.lean ====
section
/-! DEFINITION. What claims count as a legal state: the invariants the spec states of every reachable
state (spec/10_state.md R23, R31, R36, R40; spec/20_memory.md R61; spec/41_ring_buffer.md R115), and the
bit sequences claims speak of (spec/30_encoding.md R80, R81, R83). -/

namespace Sys2Proof.Machine

/-- The opcode map of R97 as the spec prints it: (match, mask), row by row. -/
def opcodeMap : List (Word × Word) := [
  (0x08000000, 0xFFFFFFFE), (0x10000000, 0xFFFFFFFF), (0x18000000, 0xFFFFFFFF),
  (0x20000000, 0xFFFFFFFF), (0x28000000, 0xFFFF0000), (0x40000000, 0xFFFF0000),
  (0x48000000, 0xFFFFFFFF), (0x50000000, 0xFFFFFF00), (0x58000000, 0xFFFFFFFF),
  (0x60000000, 0xFFFFFFFF), (0x80000000, 0xF8000000), (0x88000000, 0xFFFFFFFF),
  (0x90000000, 0xFFFFFFFF), (0xC0000000, 0xFFFFFEFF), (0xC8000000, 0xFFFFFE00),
  (0xD0000000, 0xFFFFFEFF), (0xD8000000, 0xFFFFFEFF), (0xF8000000, 0xFFFFFFFF)]

/-- A ring as every reachable state has it (R28, R31, R113): indices of `N + 1` bits, at most `CAP`
elements, storage in canonical form inside `[0, CAP)`, and every slot from tail to head written. -/
abbrev Ring.Ok (n : Nat) (r : Ring) : Prop :=
  r.head < wrap n ∧ r.tail < wrap n ∧ r.count n ≤ cap n ∧ r.buf.wf = true
    ∧ (∀ c ∈ r.buf, c.1 < cap n)
    ∧ ∀ k < r.count n, (r.buf.read? (slot n (r.tail + k))).isSome = true

/-- `w` is the operation's word, and `a` is the one source that may issue it, at either timing level
(R95, R97, R100). -/
abbrev IssuedAs (i : Instr) (w : Word) (a : Issuer) : Prop :=
  encode i = w ∧ ∀ (lvl : TimerLevel) (b : Issuer), issueCheck lvl b i = none ↔ b = a

/-- The XOR of the eight bits of a byte (R25, R81). -/
def xorBits (b : Byte) : Bool :=
  b.getLsbD 0 ^^ b.getLsbD 1 ^^ b.getLsbD 2 ^^ b.getLsbD 3
    ^^ b.getLsbD 4 ^^ b.getLsbD 5 ^^ b.getLsbD 6 ^^ b.getLsbD 7

/-- BitFrameState as every reachable state has it: one of the eleven states (R23), initial in
AwaitStart (R134), the bits not yet received 0 and the running parity that of the bits received
(R25, R133), the parity bit latched only in Stop (R26). -/
abbrev BitFrame.Ok (f : BitFrame) : Prop :=
  f.bitpos.toNat ≤ 10 ∧ (f.bitpos = 0 → f = .initial)
    ∧ (∀ i < 8, i + f.bitpos.toNat < 9 → f.shift.getLsbD i = false)
    ∧ f.parity = xorBits f.shift ∧ (f.bitpos ≠ 10 → f.pbit = false)

/-- The transmitter as every reachable state has it: one of the eleven states, ExtraStop only with
two stop bits, the line at the level R36 gives for the state, the bit timer within its compare value
(R170), and all quiet while disarmed (R161, R162). -/
abbrev State.TxOk (s : State) : Prop :=
  s.txState.toNat ≤ 10 ∧ (s.txState = 10 → s.cfg.stopBits = .two)
    ∧ (s.txState = 0 → s.txLine = true) ∧ (s.txState = 1 → s.txLine = false)
    ∧ (s.txState = 9 → s.txLine = true) ∧ (s.txState = 10 → s.txLine = true)
    ∧ s.btCount ≤ s.btCompare
    ∧ (s.txArmed = false → s.txState = 0 ∧ s.txShift = 0 ∧ s.btCount = 0)

/-- The aggregate as every reachable state has it: the sums within ±32767 (R13, R40), no wheel sum
outside WheelMouse mode (R190). -/
abbrev State.EncOk (s : State) : Prop :=
  -32767 ≤ s.accDx.toInt ∧ -32767 ≤ s.accDy.toInt ∧ -32767 ≤ s.accWheel.toInt
    ∧ (s.cfg.mode ≠ .wheelMouse → s.accWheel = 0)

/-- A sequence part-way as every reachable state has it: an `RX_READ` within its budget (R142), an
`ENC_SEND` with no more bytes than the packet's, each below 0x80 (R191, R194). -/
def PollSeq.Ok (m : Mode) (p : PollSeq) : Prop :=
  match p with
  | .idle => True
  | .reading n left => left < n.toNat
  | .sending _ pkt ok => pkt.length + ok ≤ pktLen m ∧ ∀ b ∈ pkt, b.toNat < 0x80

/-- The invariant of every reachable state. -/
structure State.Inv (s : State) : Prop where
  cfg : s.cfg.wf
  rx : s.rx.Ok s.cfg.rxCapLog2
  tx : s.tx.Ok s.cfg.txCapLog2
  frame : s.frame.Ok
  disarmed : s.rxArmed = false → s.frame = .initial
  txOk : s.TxOk
  encOk : s.EncOk
  pollOk : s.poll.Ok s.cfg.mode

/-- The bytes of a ring, oldest first: slots `tail` to `head` (R28, R115). -/
def Ring.contents (n : Nat) (q : RingId) (r : Ring) : List Byte :=
  (List.range (r.count n)).map (fun k => memRead q r.buf (slot n (r.tail + k)))

/-- The correct odd-parity bit of a byte (R81). -/
def parityBit (b : Byte) : Bool := !xorBits b

/-- The eight data levels of a byte, bit 0 first (R80). -/
def dataBits (b : Byte) : List Bool := (List.range 8).map b.getLsbD

/-- The eleven edges of a device-to-host frame with parity level `p` and stop level `e` (R80). -/
def frameEdges (b : Byte) (p e : Bool) : List Bool := false :: dataBits b ++ [p, e]

/-- Edge after edge, each an `RX_EDGE` (R130), nothing between them. -/
def runEdges : List Bool → State → Out
  | [], s => .next s
  | d :: ds, s =>
    match exec (.rxEdge d) s with
    | .next t => runEdges ds t
    | .fault f => .fault f
    | .refused r => .refused r

/-- `k` times `TX_TICK` (R171), nothing between them, with the line levels after each tick. -/
def runTicks : Nat → State → Option (List Bool × State)
  | 0, s => some ([], s)
  | k + 1, s =>
    match exec .txTick s with
    | .next t =>
      match runTicks k t with
      | some (ls, u) => some (t.txd :: ls, u)
      | none => none
    | .fault _ => none
    | .refused _ => none

/-- `k` times `BT_CLK` (R170), nothing between them. -/
def runClocks : Nat → State → Option State
  | 0, s => some s
  | k + 1, s =>
    match exec .btClk s with
    | .next t => runClocks k t
    | .fault _ => none
    | .refused _ => none

/-- The levels of the serial frame of a byte with `k` stop bits: start, bits 0 to 6, stop (R83). -/
def serialFrame (b : Byte) (k : Nat) : List Bool :=
  false :: (List.range 7).map b.getLsbD ++ List.replicate k true

/-- Source `a` has issued `k` words of its sequence. -/
def issueN (a : Issuer) : Nat → Feed → Feed
  | 0, f => f
  | k + 1, f => issueN a k (f.issue a)

/-- `k` further steps of the sequence `A_POLL` is in the middle of, no other agent between them. -/
def continueN : Nat → State → State
  | 0, s => s
  | k + 1, s => continueN k s.continuePoll

end Sys2Proof.Machine
end

