-- ==== Sys2Proof/Certificates/Slice0/Obligations.lean ====
section
/-! DEFINITION. The statements about the core block. Each docstring names the rule of spec/ it
formalises. "The frame" of a statement of the form `{ t with f := s.f, … } = s` is that every field not
restored on the left is unchanged, ring storage among them. `IssuedAs` says an operation's word and the
one source that may issue it. -/

open Sys2Proof Sys2Proof.Machine

/-! ### Words -/

/-- R95, R97: decoding the word of any operation gives the operation back, every operand bit kept. -/
def Obligations.DecodeOfEncode : Prop := ∀ i : Instr, decodeWord (encode i) = some i

/-- R95, R97, R98: a word that decodes is the one word of its operation, so no bit of it is ignored and
no word with a nonzero reserved bit decodes. -/
def Obligations.EncodeOfDecode : Prop :=
  ∀ (w : Word) (i : Instr), decodeWord w = some i → encode i = w

/-- R98: a word whose `op` is one of the unassigned opcodes is no operation, and neither is a word with
an assigned `op` and a nonzero bit where R95's format reserves it. -/
def Obligations.UnassignedAndReservedWordsDecodeToNothing : Prop :=
  ∀ w : Word,
    (w.extractLsb' 27 5 ∈ ([0x00, 0x06, 0x07, 0x0D, 0x0E, 0x0F, 0x13, 0x14, 0x15, 0x16, 0x17,
        0x1C, 0x1D, 0x1E] : List (BitVec 5)) → decodeWord w = none) ∧
    (w.extractLsb' 27 5 = 0x01 → w.extractLsb' 1 26 ≠ 0 → decodeWord w = none) ∧
    (w.extractLsb' 27 5 ∈ ([0x05, 0x08] : List (BitVec 5)) → w.extractLsb' 16 11 ≠ 0 →
      decodeWord w = none) ∧
    (w.extractLsb' 27 5 = 0x0A → w.extractLsb' 8 19 ≠ 0 → decodeWord w = none) ∧
    (w.extractLsb' 27 5 ∈ ([0x02, 0x03, 0x04, 0x09, 0x0B, 0x0C, 0x11, 0x12, 0x1F] : List (BitVec 5)) →
      w.extractLsb' 0 27 ≠ 0 → decodeWord w = none) ∧
    (w.extractLsb' 27 5 ∈ ([0x18, 0x1A, 0x1B] : List (BitVec 5)) →
      w.extractLsb' 9 18 ≠ 0 ∨ w.extractLsb' 0 8 ≠ 0 → decodeWord w = none) ∧
    (w.extractLsb' 27 5 = 0x19 → w.extractLsb' 9 18 ≠ 0 → decodeWord w = none)

/-- R97: a word decodes exactly when `(w & mask) == match` for one of the map's rows, and no word
matches two of them. -/
def Obligations.ExactlyOneMapRowDecides : Prop :=
  ∀ w : Word,
    ((decodeWord w).isSome = true ↔ ∃ r ∈ opcodeMap, w &&& r.2 = r.1) ∧
    ∀ r ∈ opcodeMap, ∀ r' ∈ opcodeMap, w &&& r.2 = r.1 → w &&& r'.2 = r'.1 → r = r'

/-- R97, R103 and the decoding vectors of 95_test_vectors.md §2.6: a few words and what they stand for. -/
def Obligations.SampleWordsDecode : Prop :=
  decodeWord 0x850AFB00 = some (.encReport true false true 10 (-5) 0) ∧
  decodeWord 0x840300FF = some (.encReport false false true 3 0 (-1)) ∧
  decodeWord 0x08000001 = some (.rxEdge true) ∧
  decodeWord 0x400000CF = some (.txInit 207) ∧
  decodeWord 0xC8000155 = some (.rbPush .tx 0x55) ∧
  decodeWord 0x28000002 = some (.rxRead 2) ∧
  decodeWord 0x58000000 = some .btClk ∧ decodeWord 0x60000000 = some .txTick ∧
  decodeWord 0x88000000 = some .encSend ∧ decodeWord 0xD0000000 = some (.rbPop .rx) ∧
  decodeWord 0x08000002 = none ∧ decodeWord 0xC0000001 = none ∧ decodeWord 0x00000000 = none

/-! ### Steps -/

/-- When the source whose turn it is issues a word that decodes to `i` and the agent check (R229) lets
it through, the step is `exec i` at the state with that turn taken: the word gone from the source's
sequence, the schedule one on, the issuer noted, nothing returned yet, and everything else as it was.
The sequences and the schedule, which stand in `State.feed`, are the model's form of R7 and R100 (logs 3,
4, 17), and so is that a part-way sequence of `A_POLL` issues no word (log 24). -/
def Obligations.StepRunsTheDecodedOperation : Prop :=
  ∀ (s : State) (a : Issuer) (w : Word) (i : Instr),
    s.feed.nextIssuer = a → s.wordFor a = some w → decodeWord w = some i →
    issueCheck s.cfg.timerLevel a i = none →
    step s = exec i (s.issue a) ∧
    (∀ b, (s.issue a).feed.program b =
      if b = a then (s.feed.program a).tail else s.feed.program b) ∧
    (s.issue a).feed.schedule = s.feed.schedule.tail ∧
    (s.issue a).feed.turns = s.feed.turns + 1 ∧ (s.issue a).feed.issuer = a ∧
    (s.issue a).returned = none ∧
    { s.issue a with feed := s.feed, returned := s.returned } = s

/-- R98, R229: a word that matches no row of R97 is refused as `ReservedEncoding`, whoever issues it. -/
def Obligations.StepRefusesReservedWords : Prop :=
  ∀ (s : State) (w : Word), s.wordFor s.feed.nextIssuer = some w →
    (∀ r ∈ opcodeMap, w &&& r.2 ≠ r.1) → step s = .refused .reservedEncoding

/-- R99, R100, R228, R229: what the agent check refuses, operation by operation. -/
def Obligations.StepRefusesForeignOperations : Prop :=
  ∀ (s : State) (a : Issuer) (i : Instr),
    s.feed.nextIssuer = a → s.wordFor a = some (encode i) →
    (a ≠ .internal → ((∃ q, i = .rbReset q) ∨ (∃ q b, i = .rbPush q b) ∨ (∃ q, i = .rbPop q) ∨
        (∃ q, i = .rbCount q)) → step s = .refused .internalOperation) ∧
    (s.cfg.timerLevel = .cycle → a ≠ .internal → i = .txTick →
      step s = .refused .internalOperation) ∧
    (s.cfg.timerLevel = .tick → i = .btClk → step s = .refused .internalOperation) ∧
    (s.cfg.timerLevel = .tick → a ≠ .bt → i = .txTick → step s = .refused .wrongAgent) ∧
    (s.cfg.timerLevel = .cycle → a ≠ .bt → i = .btClk → step s = .refused .wrongAgent) ∧
    (a ≠ .rxe → (∃ d, i = .rxEdge d) → step s = .refused .wrongAgent) ∧
    (a ≠ .env → i = .reset → step s = .refused .wrongAgent) ∧
    (a ≠ .poll → (i = .rxStart ∨ i = .rxStop ∨ i = .rxPoll ∨ (∃ n, i = .rxRead n) ∨
        (∃ n, i = .txInit n) ∨ i = .txTeardown ∨ (∃ b, i = .txEnqueue b) ∨
        (∃ l r m dx dy wheel, i = .encReport l r m dx dy wheel) ∨ i = .encSend ∨ i = .encReset) →
      step s = .refused .wrongAgent)

/-- DEDUCED (log 24) from R7, R102, R191: while `A_POLL` is in the middle of `RX_READ` or `ENC_SEND`, its
turn is the sequence's next step and issues no word of its own. That turns come from a schedule, which
moves on, is the model's choice (log 4). -/
def Obligations.PollTurnContinuesItsSequence : Prop :=
  ∀ s : State, s.feed.nextIssuer = .poll → s.poll ≠ .idle →
    ∃ t, step s = .next t ∧ t = (s.turn .poll).continuePoll ∧ t.feed.poll = s.feed.poll ∧
      t.feed.schedule = s.feed.schedule.tail

/-- MODEL'S CHOICE (log 5): a turn of a source with nothing to issue changes no register. -/
def Obligations.IdleTurnKeepsTheBlock : Prop :=
  ∀ s : State, s.midSequence s.feed.nextIssuer = false → s.wordFor s.feed.nextIssuer = none →
    ∃ t, step s = .next t ∧ { t with feed := s.feed, returned := s.returned } = s

/-! ### The ring primitives -/

/-- R112 (a ring with room): the byte goes to the head's slot, the head moves on modulo `2^(N+1)`, every
other slot, index, counter and register stays. -/
def Obligations.PushStoresAtTheHeadSlot : Prop :=
  ∀ (q : RingId) (b : Byte) (s : State), (s.ring q).count (s.capLog2 q) ≠ 2 ^ s.capLog2 q →
    ∃ t, exec (.rbPush q b) s = .next t ∧ t.returned = some .ok ∧
      memRead q (t.ring q).buf ((s.ring q).head % 2 ^ s.capLog2 q) = b ∧
      (∀ k, k ≠ (s.ring q).head % 2 ^ s.capLog2 q →
        (t.ring q).buf.read? k = (s.ring q).buf.read? k) ∧
      (t.ring q).head = ((s.ring q).head + 1) % 2 ^ (s.capLog2 q + 1) ∧
      (t.ring q).tail = (s.ring q).tail ∧ (t.ring q).ovf = (s.ring q).ovf ∧
      t.setRing q (s.ring q) = s.ret .ok

/-- R112, R222 (a full ring): nothing is stored, the counter goes up and stops at 0xFFFF, the event
`Overflow(q, b)` is emitted, `Dropped` is returned, and nothing else changes. -/
def Obligations.PushOnAFullRingDropsTheByte : Prop :=
  ∀ (q : RingId) (b : Byte) (s : State), (s.ring q).count (s.capLog2 q) = 2 ^ s.capLog2 q →
    ∃ t, exec (.rbPush q b) s = .next t ∧ t.returned = some .dropped ∧
      t.events = s.events ++ [.overflow q b] ∧
      (t.ring q).ovf.toNat = min ((s.ring q).ovf.toNat + 1) 0xFFFF ∧
      (t.ring q).buf = (s.ring q).buf ∧
      { t.setRing q { t.ring q with ovf := (s.ring q).ovf } with
        events := s.events, returned := s.returned } = s

/-- R113: on a ring that is not empty, a pop returns the byte at the tail's slot and moves the tail on
modulo `2^(N+1)`; on an empty ring it returns `Empty`; nothing else changes. -/
def Obligations.PopReturnsTheTailSlot : Prop :=
  ∀ (q : RingId) (s : State),
    ((s.ring q).count (s.capLog2 q) = 0 → exec (.rbPop q) s = .next (s.ret .empty)) ∧
    ((s.ring q).count (s.capLog2 q) ≠ 0 →
      exec (.rbPop q) s = .next
        ((s.setRing q { s.ring q with tail := ((s.ring q).tail + 1) % 2 ^ (s.capLog2 q + 1) }).ret
          (.byte (memRead q (s.ring q).buf ((s.ring q).tail % 2 ^ s.capLog2 q)))))

/-- R114, R31: `RB_COUNT` returns `(head - tail) mod 2^(N+1)` and changes nothing. -/
def Obligations.CountIsTheModularDistance : Prop :=
  ∀ (q : RingId) (s : State),
    encode (.rbCount q) = (match q with | .rx => 0xD8000000 | .tx => 0xD8000100) ∧
    ∃ c : Nat, exec (.rbCount q) s = .next (s.ret (.count c)) ∧
    (c : Int) = (((s.ring q).head : Int) - ((s.ring q).tail : Int)) % (2 ^ (s.capLog2 q + 1) : Int)

/-- R111: both indices to 0, the overflow counter and the storage kept, nothing else changed. -/
def Obligations.RingResetEmptiesTheRing : Prop :=
  ∀ (q : RingId) (s : State),
    encode (.rbReset q) = (match q with | .rx => 0xC0000000 | .tx => 0xC0000100) ∧
    ∃ t, exec (.rbReset q) s = .next t ∧ t.returned = some .ok ∧
    (t.ring q).count (s.capLog2 q) = 0 ∧
    t.ring q = { s.ring q with head := 0, tail := 0 } ∧
    t.setRing q (s.ring q) = s.ret .ok

/-- R115: seen as the list of its bytes, a ring is a queue of at most `CAP`: a push appends when there
is room and leaves the list alone when there is none, a pop takes the first byte, a reset empties. -/
def Obligations.RingIsABoundedQueue : Prop :=
  ∀ (q : RingId) (s : State), s.Inv →
    ((s.ring q).contents (s.capLog2 q) q).length ≤ 2 ^ s.capLog2 q ∧
    (∀ b : Byte, ∃ t, exec (.rbPush q b) s = .next t ∧
      (t.ring q).contents (s.capLog2 q) q =
        (if ((s.ring q).contents (s.capLog2 q) q).length < 2 ^ s.capLog2 q then
          (s.ring q).contents (s.capLog2 q) q ++ [b]
        else (s.ring q).contents (s.capLog2 q) q)) ∧
    (∃ t, exec (.rbPop q) s = .next t ∧
      match (s.ring q).contents (s.capLog2 q) q with
      | [] => t.returned = some .empty ∧ (t.ring q).contents (s.capLog2 q) q = []
      | b :: bs => t.returned = some (.byte b) ∧ (t.ring q).contents (s.capLog2 q) q = bs) ∧
    (∃ t, exec (.rbReset q) s = .next t ∧ (t.ring q).contents (s.capLog2 q) q = [])

/-- R29, R113: from a legal state a pop never returns storage that no push has written. -/
def Obligations.UnwrittenStorageIsNeverReturned : Prop :=
  ∀ (q : RingId) (s : State), s.Inv → (s.ring q).count (s.capLog2 q) ≠ 0 →
    ∃ t b, exec (.rbPop q) s = .next t ∧ t.returned = some (.byte b) ∧
      (s.ring q).buf.read? ((s.ring q).tail % 2 ^ s.capLog2 q) = some b

/-! ### The receiver -/

/-- R131: a disarmed edge changes no register; only `Ok` is returned. -/
def Obligations.DisarmedEdgeIsLost : Prop :=
  ∀ (d : Bool) (s : State), s.rxArmed = false → exec (.rxEdge d) s = .next (s.ret .ok)

/-- R132 to R135: the armed transitions out of AwaitStart, Bit[0..7] and Parity, with their frames. -/
def Obligations.EdgeAdvancesTheFrame : Prop :=
  ∀ (d : Bool) (s : State), s.rxArmed = true →
    (s.frame.bitpos.toNat = 0 → d = true →
      exec (.rxEdge d) s = .next { s with events := s.events ++ [.startError], returned := some .ok }) ∧
    (s.frame.bitpos.toNat = 0 → d = false →
      exec (.rxEdge d) s =
        .next { s with frame := { s.frame with bitpos := 1 }, returned := some .ok }) ∧
    (1 ≤ s.frame.bitpos.toNat → s.frame.bitpos.toNat ≤ 8 →
      ∃ t, exec (.rxEdge d) s = .next t ∧ t.frame.bitpos.toNat = s.frame.bitpos.toNat + 1 ∧
        t.frame.shift.getLsbD 7 = d ∧
        (∀ k < 7, t.frame.shift.getLsbD k = s.frame.shift.getLsbD (k + 1)) ∧
        t.frame.parity = (s.frame.parity ^^ d) ∧ t.frame.pbit = s.frame.pbit ∧
        t.returned = some .ok ∧ { t with frame := s.frame, returned := s.returned } = s) ∧
    (s.frame.bitpos.toNat = 9 →
      exec (.rxEdge d) s =
        .next { s with frame := { s.frame with bitpos := 10, pbit := d }, returned := some .ok })

/-- R136, R137: in Stop a valid frame's byte is pushed as `RB_PUSH` pushes it, an invalid one is
discarded with one event, `StopError` before `ParityError`; either way BitFrameState is initial. -/
def Obligations.StopEdgePushesOrDiscards : Prop :=
  ∀ (d : Bool) (s : State), s.rxArmed = true → s.frame.bitpos.toNat = 10 →
    (d = true → (s.frame.parity ^^ s.frame.pbit) = true →
      ∃ u, exec (.rbPush .rx s.frame.shift) s = .next u ∧
        exec (.rxEdge d) s = .next { u with frame := .initial, returned := some .ok }) ∧
    (d = false →
      exec (.rxEdge d) s = .next { s with
        frame := .initial, events := s.events ++ [.stopError], returned := some .ok }) ∧
    (d = true → (s.frame.parity ^^ s.frame.pbit) = false →
      exec (.rxEdge d) s = .next { s with
        frame := .initial, events := s.events ++ [.parityError], returned := some .ok })

/-- R144, R171, R226: `rx_bitpos` or `tx_state` holding 11 to 15 faults, at an armed edge, at an armed
tick, and at the `BT_CLK` that would fire the tick. -/
def Obligations.UnreachableRegisterValuesFault : Prop :=
  ∀ s : State,
    (s.rxArmed = true → 11 ≤ s.frame.bitpos.toNat →
      ∀ d, exec (.rxEdge d) s = .fault (.unreachableState .rxBitpos)) ∧
    (s.txArmed = true → 11 ≤ s.txState.toNat →
      exec .txTick s = .fault (.unreachableState .txState) ∧
      (s.btCount = s.btCompare → exec .btClk s = .fault (.unreachableState .txState)))

/-- R138 item 1: from AwaitStart, armed and with room in the ring, the eleven edges of a well-formed
frame for `b` push exactly `b`, once, into the head's slot, and leave BitFrameState initial; no event,
every other slot as it was, nothing else changed. -/
def Obligations.WellFormedFrameDeliversItsByte : Prop :=
  ∀ (b : Byte) (s : State), s.Inv → s.rxArmed = true → s.frame = .initial →
    s.rx.count s.cfg.rxCapLog2 < 2 ^ s.cfg.rxCapLog2 →
    ∃ t, runEdges (frameEdges b (parityBit b) true) s = .next t ∧
      t.rx.contents s.cfg.rxCapLog2 .rx = s.rx.contents s.cfg.rxCapLog2 .rx ++ [b] ∧
      (∀ k, k ≠ slot s.cfg.rxCapLog2 s.rx.head → t.rx.buf.read? k = s.rx.buf.read? k) ∧
      t.frame = .initial ∧ t.rx.ovf = s.rx.ovf ∧ t.rx.tail = s.rx.tail ∧
      { t with rx := s.rx, returned := s.returned } = s

/-- R138 item 2, R137: a frame with a wrong stop bit, or a right stop bit and a wrong parity bit, pushes
nothing and leaves no trace but its one event, so the next frame starts as if it had not been. -/
def Obligations.CorruptedFrameLeavesNoTrace : Prop :=
  ∀ (b : Byte) (p e : Bool) (s : State), s.rxArmed = true → s.frame = .initial →
    (e = false → runEdges (frameEdges b p e) s =
      .next { s with events := s.events ++ [.stopError], returned := some .ok }) ∧
    (e = true → p = !parityBit b → runEdges (frameEdges b p e) s =
      .next { s with events := s.events ++ [.parityError], returned := some .ok })

/-- R139: `RX_STOP` disarms and drops the partial frame; the ring and everything else are kept. -/
def Obligations.RxStopDisarmsAndKeepsTheRing : Prop :=
  IssuedAs .rxStop 0x18000000 .poll ∧ ∀ s : State,
    ∃ t, exec .rxStop s = .next t ∧ t.rxArmed = false ∧
    t.frame.bitpos = 0 ∧ t.frame.shift = 0 ∧ t.frame.parity = false ∧ t.frame.pbit = false ∧
    t.returned = some .ok ∧
    { t with rxArmed := s.rxArmed, frame := s.frame, returned := s.returned } = s

/-- R140, R227: `RX_START` faults while armed; disarmed, it empties the ring (counter and storage kept),
resets BitFrameState and arms, and changes nothing else. -/
def Obligations.RxStartArmsOrFaults : Prop :=
  IssuedAs .rxStart 0x10000000 .poll ∧ ∀ s : State,
    (s.rxArmed = true → exec .rxStart s = .fault (.reinitWhileArmed .rx)) ∧
    (s.rxArmed = false → ∃ t, exec .rxStart s = .next t ∧ t.rxArmed = true ∧
      t.frame.bitpos = 0 ∧ t.frame.shift = 0 ∧ t.frame.parity = false ∧ t.frame.pbit = false ∧
      t.rx = { s.rx with head := 0, tail := 0 } ∧ t.returned = some .ok ∧
      { t with rxArmed := s.rxArmed, frame := s.frame, rx := s.rx, returned := s.returned } = s)

/-- R141: `RX_POLL` is one `RB_POP RX`, armed or not, and always completes. -/
def Obligations.RxPollTakesOneByte : Prop :=
  IssuedAs .rxPoll 0x20000000 .poll ∧ ∀ s : State,
    (s.rx.count s.cfg.rxCapLog2 = 0 → exec .rxPoll s = .next (s.ret .empty)) ∧
    (s.rx.count s.cfg.rxCapLog2 ≠ 0 →
      exec .rxPoll s = .next { s with
        rx := { s.rx with tail := (s.rx.tail + 1) % 2 ^ (s.cfg.rxCapLog2 + 1) }
        returned := some (.byte (memRead .rx s.rx.buf (s.rx.tail % 2 ^ s.cfg.rxCapLog2))) })

/-- R142: the first poll of `RX_READ n` takes a byte and ends, or, on an empty ring, ends in `Timeout`
with its event when `n = 0` and leaves `n` polls to come when it is not. -/
def Obligations.RxReadTakesItsFirstPoll : Prop :=
  ∀ (n : Half) (s : State),
    (s.rx.count s.cfg.rxCapLog2 ≠ 0 →
      exec (.rxRead n) s = .next { s with
        rx := { s.rx with tail := (s.rx.tail + 1) % 2 ^ (s.cfg.rxCapLog2 + 1) }
        poll := .idle
        returned := some (.byte (memRead .rx s.rx.buf (s.rx.tail % 2 ^ s.cfg.rxCapLog2))) }) ∧
    (s.rx.count s.cfg.rxCapLog2 = 0 → n = 0 →
      exec (.rxRead n) s = .next { s with
        poll := .idle, events := s.events ++ [.timeout n], returned := some .timeout }) ∧
    (s.rx.count s.cfg.rxCapLog2 = 0 → n ≠ 0 →
      exec (.rxRead n) s = .next { s with poll := .reading n (n.toNat - 1), returned := none })

/-- R142: on a ring that stays empty, `RX_READ n` polls exactly `n + 1` times and then returns
`Timeout` with the event `Timeout(n)`, having changed nothing else. -/
def Obligations.RxReadOnAnEmptyRingTimesOut : Prop :=
  ∀ (n : Half) (s : State), s.rx.count s.cfg.rxCapLog2 = 0 →
    ∃ t, exec (.rxRead n) s = .next t ∧
      (∀ k < n.toNat, (continueN k t).poll = .reading n (n.toNat - 1 - k) ∧
        (continueN k t).returned = none) ∧
      continueN n.toNat t =
        { s with poll := .idle, events := s.events ++ [.timeout n], returned := some .timeout }

/-- R142: whatever the other agents did in between, each further poll of an `RX_READ` takes a byte as an
`RX_POLL` does if one is there, and otherwise uses up one of the polls left, the last one timing out
(in that poll's own step, DEDUCED, log 14); each clause gives the whole next state. -/
def Obligations.EveryReadPollEndsOrCountsDown : Prop :=
  ∀ (s : State) (n : Half) (left : Nat), s.poll = .reading n left →
    (s.rx.count s.cfg.rxCapLog2 ≠ 0 →
      s.continuePoll = { s with
        rx := { s.rx with tail := (s.rx.tail + 1) % 2 ^ (s.cfg.rxCapLog2 + 1) }
        poll := .idle
        returned := some (.byte (memRead .rx s.rx.buf (s.rx.tail % 2 ^ s.cfg.rxCapLog2))) }) ∧
    (s.rx.count s.cfg.rxCapLog2 = 0 → left = 0 →
      s.continuePoll =
        { s with poll := .idle, events := s.events ++ [.timeout n], returned := some .timeout }) ∧
    (s.rx.count s.cfg.rxCapLog2 = 0 → left ≠ 0 →
      s.continuePoll = { s with poll := .reading n (left - 1), returned := none })

/-! ### The transmitter and the bit timer -/

/-- R161, R227: `TX_INIT n` faults while armed; disarmed, it programs the compare value, clears the
counter, empties the TX ring (counter and storage kept), sets Idle and mark, and arms. -/
def Obligations.TxInitArmsOrFaults : Prop :=
  ∀ (n : Half) (s : State), IssuedAs (.txInit n) (0x40000000 ||| n.setWidth 32) .poll ∧
    (s.txArmed = true → exec (.txInit n) s = .fault (.reinitWhileArmed .tx)) ∧
    (s.txArmed = false → ∃ t, exec (.txInit n) s = .next t ∧ t.btCompare = n ∧ t.btCount = 0 ∧
      t.tx = { s.tx with head := 0, tail := 0 } ∧ t.txState = 0 ∧ t.txShift = 0 ∧
      t.txLine = true ∧ t.txArmed = true ∧ t.returned = some .ok ∧
      { t with
        btCompare := s.btCompare, btCount := s.btCount, tx := s.tx, txState := s.txState,
        txShift := s.txShift, txLine := s.txLine, txArmed := s.txArmed, returned := s.returned } = s)

/-- R162: `TX_TEARDOWN` disarms, clears the counter, empties the TX ring, sets Idle and mark at once;
`bt_compare`, `tx_ovf`, `tick_count` and everything else are kept. -/
def Obligations.TxTeardownQuietsTheLine : Prop :=
  IssuedAs .txTeardown 0x48000000 .poll ∧ ∀ s : State,
    ∃ t, exec .txTeardown s = .next t ∧ t.txArmed = false ∧ t.btCount = 0 ∧
    t.tx = { s.tx with head := 0, tail := 0 } ∧ t.txState = 0 ∧ t.txShift = 0 ∧ t.txLine = true ∧
    t.returned = some .ok ∧
    { t with
      btCount := s.btCount, tx := s.tx, txState := s.txState, txShift := s.txShift,
      txLine := s.txLine, txArmed := s.txArmed, returned := s.returned } = s

/-- R163: `TX_ENQUEUE b` is exactly one `RB_PUSH TX, b`, with its result, room or no room. -/
def Obligations.TxEnqueueIsOnePush : Prop :=
  ∀ (b : Byte) (s : State), IssuedAs (.txEnqueue b) (0x50000000 ||| b.setWidth 32) .poll ∧
    ∃ t, exec (.txEnqueue b) s = .next t ∧ exec (.rbPush .tx b) s = .next t ∧
    (s.tx.count s.cfg.txCapLog2 ≠ 2 ^ s.cfg.txCapLog2 → t.returned = some .ok) ∧
    (s.tx.count s.cfg.txCapLog2 = 2 ^ s.cfg.txCapLog2 → t.returned = some .dropped)

/-- R170: a timer clock does nothing while disarmed, counts below the compare value, and at the compare
value clears the counter and is the tick, in the same step. -/
def Obligations.TimerClockCountsOrTicks : Prop :=
  ∀ s : State,
    (s.txArmed = false → exec .btClk s = .next (s.ret .ok)) ∧
    (s.txArmed = true → s.btCount ≠ s.btCompare →
      exec .btClk s = .next { s with btCount := s.btCount + 1, returned := some .ok }) ∧
    (s.txArmed = true → s.btCount = s.btCompare → s.txState.toNat ≤ 10 →
      ∃ t, exec .btClk s = .next t ∧ exec .txTick { s with btCount := 0 } = .next t ∧
        t.btCount = 0 ∧ t.tickCount = s.tickCount + 1)

/-- R170: from a cleared counter the first tick comes on timer clock number `bt_compare + 1`: the first
`bt_compare` clocks only count, and the next one ticks and clears the counter. -/
def Obligations.FirstTickComesAfterCompareClocks : Prop :=
  ∀ s : State, s.txArmed = true → s.btCount = 0 → s.txState.toNat ≤ 10 →
    (∀ k, 0 < k → k ≤ s.btCompare.toNat →
      runClocks k s = some { s with btCount := BitVec.ofNat 16 k, returned := some .ok }) ∧
    ∃ t, runClocks (s.btCompare.toNat + 1) s = some t ∧ t.btCount = 0 ∧
      t.tickCount = s.tickCount + 1 ∧ exec .txTick s = .next t

/-- R171, R174, R175, R177, R180: a disarmed tick does nothing; an armed tick adds 1 to `tick_count` and
takes the arm of its state, for the states that run no `NextByte()`. -/
def Obligations.TickShiftsTheByteOut : Prop :=
  ∀ s : State,
    (s.txArmed = false → exec .txTick s = .next (s.ret .ok)) ∧
    (s.txArmed = true → 1 ≤ s.txState.toNat → s.txState.toNat ≤ 7 →
      exec .txTick s = .next { s with
        tickCount := s.tickCount + 1, txLine := s.txShift.getLsbD 0, txShift := s.txShift >>> 1,
        txState := s.txState + 1, returned := some .ok }) ∧
    (s.txArmed = true → s.txState.toNat = 8 →
      exec .txTick s = .next { s with
        tickCount := s.tickCount + 1, txLine := true, txState := 9, returned := some .ok }) ∧
    (s.txArmed = true → s.txState.toNat = 9 → s.cfg.stopBits = .two →
      exec .txTick s = .next { s with
        tickCount := s.tickCount + 1, txLine := true, txState := 10, returned := some .ok })

/-- R172, R173, R177, R178: an armed tick in Idle, in the last stop bit with `STOP_BITS = 1`, or in
ExtraStop pops the next byte and drives its start bit, or idles at mark when the ring is empty. -/
def Obligations.TickStartsTheNextByteOrIdles : Prop :=
  ∀ s : State, s.txArmed = true →
    (s.txState.toNat = 0 ∨ (s.txState.toNat = 9 ∧ s.cfg.stopBits = .one) ∨ s.txState.toNat = 10) →
    (s.tx.count s.cfg.txCapLog2 = 0 →
      exec .txTick s = .next { s with
        tickCount := s.tickCount + 1, txLine := true, txState := 0, returned := some .ok }) ∧
    (s.tx.count s.cfg.txCapLog2 ≠ 0 →
      exec .txTick s = .next { s with
        tickCount := s.tickCount + 1
        tx := { s.tx with tail := (s.tx.tail + 1) % 2 ^ (s.cfg.txCapLog2 + 1) }
        txShift := memRead .tx s.tx.buf (s.tx.tail % 2 ^ s.cfg.txCapLog2)
        txLine := false, txState := 1, returned := some .ok })

/-- R179, R181, R83: between bytes, with `bs` queued and no push between the ticks, the line carries the
serial frames of `bs` in order and without a gap, `8 + STOP_BITS` ticks each, and the ring is empty. -/
def Obligations.QueuedBytesLeaveAsSerialFrames : Prop :=
  ∀ (bs : List Byte) (s : State), s.Inv → s.txArmed = true →
    (s.txState = 0 ∨ (s.txState = 9 ∧ s.cfg.stopBits = .one) ∨ s.txState = 10) →
    s.tx.contents s.cfg.txCapLog2 .tx = bs →
    ∃ t, runTicks (bs.length * (8 + stopBitCount s.cfg)) s =
        some (bs.flatMap (fun b => serialFrame b (stopBitCount s.cfg)), t) ∧
      t.tx.contents s.cfg.txCapLog2 .tx = [] ∧
      t.tickCount = s.tickCount + BitVec.ofNat 32 (bs.length * (8 + stopBitCount s.cfg))

/-! ### The packet encoder -/

/-- R190: the sums saturate at ±32767, the wheel only in WheelMouse mode, the report's buttons replace
the earlier ones, and nothing else changes. -/
def Obligations.ReportAccumulatesSaturating : Prop :=
  ∀ (l r m : Bool) (dx dy wheel : Byte) (s : State),
    IssuedAs (.encReport l r m dx dy wheel)
      (0x80000000 ||| (BitVec.ofBool m).setWidth 32 <<< 26 ||| (BitVec.ofBool r).setWidth 32 <<< 25
        ||| (BitVec.ofBool l).setWidth 32 <<< 24 ||| dx.setWidth 32 <<< 16 ||| dy.setWidth 32 <<< 8
        ||| wheel.setWidth 32) .poll ∧
    ∃ t, exec (.encReport l r m dx dy wheel) s = .next t ∧
      t.accDx.toInt = min (max (s.accDx.toInt + dx.toInt) (-32767)) 32767 ∧
      t.accDy.toInt = min (max (s.accDy.toInt + dy.toInt) (-32767)) 32767 ∧
      (s.cfg.mode = .wheelMouse →
        t.accWheel.toInt = min (max (s.accWheel.toInt + wheel.toInt) (-32767)) 32767) ∧
      (s.cfg.mode ≠ .wheelMouse → t.accWheel = s.accWheel) ∧
      t.curButtons.getLsbD 0 = l ∧ t.curButtons.getLsbD 1 = r ∧ t.curButtons.getLsbD 2 = m ∧
      t.returned = some .ok ∧
      { t with
        accDx := s.accDx, accDy := s.accDy, accWheel := s.accWheel, curButtons := s.curButtons,
        returned := s.returned } = s

/-- R191 to R193: an attempt before the packet period has passed returns `NotDue`; a due one with zero
motion and unchanged buttons returns `Suppressed`; neither changes anything. -/
def Obligations.SendIsThrottledAndSuppressed : Prop :=
  ∀ s : State,
    ((s.tickCount - s.lastSendTick).toNat < pktLen s.cfg.mode * (8 + stopBitCount s.cfg) →
      exec .encSend s = .next (s.ret .notDue)) ∧
    (pktLen s.cfg.mode * (8 + stopBitCount s.cfg) ≤ (s.tickCount - s.lastSendTick).toNat →
      s.accDx = 0 → s.accDy = 0 → (s.cfg.mode = .wheelMouse → s.accWheel = 0) →
      s.curButtons = s.lastButtons → exec .encSend s = .next (s.ret .suppressed))

/-- R191: a due attempt with motion or changed buttons fixes the tick and the packet in its check step;
nothing else changes, and the packet is what `ENCODE` gives for the sums and the latest buttons. -/
def Obligations.DueSendFixesItsPacket : Prop :=
  ∀ s : State, pktLen s.cfg.mode * (8 + stopBitCount s.cfg) ≤ (s.tickCount - s.lastSendTick).toNat →
    (s.accDx ≠ 0 ∨ s.accDy ≠ 0 ∨ (s.cfg.mode = .wheelMouse ∧ s.accWheel ≠ 0) ∨
      s.curButtons ≠ s.lastButtons) →
    exec .encSend s = .next { s with
      poll := .sending s.tickCount
        (encodePacket s.cfg.mode s.curButtons s.accDx s.accDy s.accWheel) 0
      returned := none }

/-- R191, R193, R267: an `ENC_SEND` that sends, with no other agent's step inside it, stores as many
bytes of the packet as the TX ring has room for, counts the others as overflow, clears the sums, notes
the buttons and the tick of the check step, and returns `Sent` of the bytes stored. -/
def Obligations.SendStoresWhatFitsAndCommits : Prop :=
  ∀ s : State, s.Inv →
    pktLen s.cfg.mode * (8 + stopBitCount s.cfg) ≤ (s.tickCount - s.lastSendTick).toNat →
    s.worthSending = true →
    ∃ t u, exec .encSend s = .next t ∧ u = continueN (pktLen s.cfg.mode + 1) t ∧
      ∃ k, k = min (pktLen s.cfg.mode) (2 ^ s.cfg.txCapLog2 - s.tx.count s.cfg.txCapLog2) ∧
        u.tx.contents s.cfg.txCapLog2 .tx =
          s.tx.contents s.cfg.txCapLog2 .tx ++
            (encodePacket s.cfg.mode s.curButtons s.accDx s.accDy s.accWheel).take k ∧
        u.tx.tail = s.tx.tail ∧
        u.tx.ovf.toNat = min (s.tx.ovf.toNat + (pktLen s.cfg.mode - k)) 0xFFFF ∧
        u.events = s.events ++
          ((encodePacket s.cfg.mode s.curButtons s.accDx s.accDy s.accWheel).drop k).map
            (.overflow .tx) ∧
        u.accDx = 0 ∧ u.accDy = 0 ∧ u.accWheel = 0 ∧ u.lastButtons = s.curButtons ∧
        u.lastSendTick = s.tickCount ∧ u.poll = .idle ∧ u.returned = some (.sent k) ∧
        { u with
          tx := s.tx, accDx := s.accDx, accDy := s.accDy, accWheel := s.accWheel,
          lastButtons := s.lastButtons, lastSendTick := s.lastSendTick, poll := s.poll,
          events := s.events, returned := s.returned } = s

/-- R201: sent into an empty TX ring between two bytes, a packet has room, and when `PACKET_PERIOD` ticks
have passed, the earliest at which another send can be due, all its bytes have left the ring and the
transmitter is between two bytes again. -/
def Obligations.PacketLeavesWithinOnePeriod : Prop :=
  ∀ s : State, s.Inv → s.txArmed = true →
    (s.txState = 0 ∨ (s.txState = 9 ∧ s.cfg.stopBits = .one) ∨ s.txState = 10) →
    s.tx.contents s.cfg.txCapLog2 .tx = [] →
    pktLen s.cfg.mode * (8 + stopBitCount s.cfg) ≤ (s.tickCount - s.lastSendTick).toNat →
    s.worthSending = true →
    ∃ t u v ls, exec .encSend s = .next t ∧ u = continueN (pktLen s.cfg.mode + 1) t ∧
      u.returned = some (.sent (pktLen s.cfg.mode)) ∧ u.tx.ovf = s.tx.ovf ∧
      runTicks (pktLen s.cfg.mode * (8 + stopBitCount s.cfg)) u = some (ls, v) ∧
      v.tx.contents s.cfg.txCapLog2 .tx = [] ∧
      ((v.txState = 9 ∧ s.cfg.stopBits = .one) ∨ v.txState = 10)

/-- R193: the commit step, whatever happened since the check step. -/
def Obligations.CommitClearsTheAggregate : Prop :=
  ∀ (s : State) (ts : Word) (k : Nat), s.poll = .sending ts [] k →
    ∃ t, s.continuePoll = t ∧ t.accDx = 0 ∧ t.accDy = 0 ∧ t.accWheel = 0 ∧
      t.lastButtons = s.curButtons ∧ t.lastSendTick = ts ∧ t.poll = .idle ∧
      t.returned = some (.sent k) ∧
      { t with
        accDx := s.accDx, accDy := s.accDy, accWheel := s.accWheel, lastButtons := s.lastButtons,
        lastSendTick := s.lastSendTick, poll := s.poll, returned := s.returned } = s

/-- R194 to R199, R85 to R87: the packet in integer arithmetic, from the clamped `dx` and the negated
and clamped `dy`. -/
def Obligations.PacketBytesAreTheFormulas : Prop :=
  ∀ (mode : Mode) (bt : Buttons) (ax ay aw : Half), ∃ (dx dy : Int) (b0 b1 b2 b3 : Byte),
    dx = min (max ax.toInt (-127)) 127 ∧ dy = min (max (-ay.toInt) (-127)) 127 ∧
    (b0.toNat : Int) = 0x40 + (if bt.getLsbD 0 then 0x20 else 0) + (if bt.getLsbD 1 then 0x10 else 0)
      + 4 * ((dy / 64) % 4) + (dx / 64) % 4 ∧
    (b1.toNat : Int) = dx % 64 ∧ (b2.toNat : Int) = dy % 64 ∧
    (mode = .twoButton → encodePacket mode bt ax ay aw = [b0, b1, b2]) ∧
    (mode = .threeButton → b3.toNat = (if bt.getLsbD 2 then 0x20 else 0) ∧
      encodePacket mode bt ax ay aw = [b0, b1, b2, b3]) ∧
    (mode = .wheelMouse →
      (b3.toNat : Int) = (if bt.getLsbD 2 then 0x10 else 0) + aw.toInt % 16 ∧
      encodePacket mode bt ax ay aw = [b0, b1, b2, b3])

/-- R88, R194: a packet has `PKT_LEN(MODE)` bytes, each below 0x80, and bit 6 is 1 in the first of them
and 0 in every other, so a host can find a packet's start. -/
def Obligations.PacketStartIsMarked : Prop :=
  ∀ (mode : Mode) (bt : Buttons) (ax ay aw : Half), ∃ b0 rest,
    encodePacket mode bt ax ay aw = b0 :: rest ∧ rest.length + 1 = pktLen mode ∧
    b0.getLsbD 6 = true ∧ b0.getLsbD 7 = false ∧
    ∀ b ∈ rest, b.getLsbD 6 = false ∧ b.getLsbD 7 = false

/-- R195, R202: motion beyond the clamp is lost: a sum past ±127 encodes as ±127. -/
def Obligations.MotionBeyondTheClampIsLost : Prop :=
  ∀ (mode : Mode) (bt : Buttons) (ax ay aw : Half),
    (127 ≤ ax.toInt → encodePacket mode bt ax ay aw = encodePacket mode bt 127 ay aw) ∧
    (ax.toInt ≤ -127 → encodePacket mode bt ax ay aw = encodePacket mode bt (-127) ay aw) ∧
    (127 ≤ ay.toInt → encodePacket mode bt ax ay aw = encodePacket mode bt ax 127 aw) ∧
    (ay.toInt ≤ -127 → encodePacket mode bt ax ay aw = encodePacket mode bt ax (-127) aw)

/-- R200: `ENC_RESET` clears the sums and both button sets and restarts the period; nothing else. -/
def Obligations.EncResetClearsTheAggregate : Prop :=
  IssuedAs .encReset 0x90000000 .poll ∧ ∀ s : State,
    ∃ t, exec .encReset s = .next t ∧ t.accDx = 0 ∧ t.accDy = 0 ∧ t.accWheel = 0 ∧
    t.curButtons = 0 ∧ t.lastButtons = 0 ∧ t.lastSendTick = s.tickCount ∧ t.returned = some .ok ∧
    { t with
      accDx := s.accDx, accDy := s.accDy, accWheel := s.accWheel, curButtons := s.curButtons,
      lastButtons := s.lastButtons, lastSendTick := s.lastSendTick, returned := s.returned } = s

/-! ### Reset -/

/-- R250: `RESET` puts every register at its reset value and cancels what was part-way; ring storage is
not written, and the configuration, the event history and the programs are kept. -/
def Obligations.ResetPutsEveryRegisterAtItsValue : Prop :=
  IssuedAs .reset 0xF8000000 .env ∧ ∀ s : State, ∃ t, exec .reset s = .next t ∧
    t.rxArmed = false ∧ t.frame.bitpos = 0 ∧ t.frame.shift = 0 ∧ t.frame.parity = false ∧
    t.frame.pbit = false ∧ t.rx.head = 0 ∧ t.rx.tail = 0 ∧ t.rx.ovf = 0 ∧ t.rx.buf = s.rx.buf ∧
    t.txArmed = false ∧ t.btCompare = 0 ∧ t.btCount = 0 ∧ t.txState = 0 ∧ t.txShift = 0 ∧
    t.txLine = true ∧ t.tx.head = 0 ∧ t.tx.tail = 0 ∧ t.tx.ovf = 0 ∧ t.tx.buf = s.tx.buf ∧
    t.tickCount = 0 ∧ t.accDx = 0 ∧ t.accDy = 0 ∧ t.accWheel = 0 ∧ t.curButtons = 0 ∧
    t.lastButtons = 0 ∧ t.lastSendTick = 0 ∧ t.poll = .idle ∧ t.returned = some .ok ∧
    t.cfg = s.cfg ∧ t.events = s.events ∧ t.feed = s.feed

/-- R20: the machine right after reset, under every configuration: every register 0 but `tx_line`, the
line at mark, and nothing written in either ring's storage. -/
def Obligations.ResetStateHasTheResetColumn : Prop :=
  ∀ c : Config, ∃ t, t = State.resetWith c ∧
    t.rxArmed = false ∧ t.frame.bitpos = 0 ∧ t.frame.shift = 0 ∧ t.frame.parity = false ∧
    t.frame.pbit = false ∧ t.rx.head = 0 ∧ t.rx.tail = 0 ∧ t.rx.ovf = 0 ∧
    t.txArmed = false ∧ t.btCompare = 0 ∧ t.btCount = 0 ∧ t.txState = 0 ∧ t.txShift = 0 ∧
    t.txLine = true ∧ t.tx.head = 0 ∧ t.tx.tail = 0 ∧ t.tx.ovf = 0 ∧ t.tickCount = 0 ∧
    t.accDx = 0 ∧ t.accDy = 0 ∧ t.accWheel = 0 ∧ t.curButtons = 0 ∧ t.lastButtons = 0 ∧
    t.lastSendTick = 0

/-! ### The whole machine -/

/-- The invariant of `State.Inv` holds right after reset, under every configuration R8 allows. -/
def Obligations.LegalStateAtReset : Prop := ∀ c : Config, c.wf → (State.resetWith c).Inv

/-- R23, R31, R36, R40, R115: every step of every agent keeps the state legal: ring counts within
capacity and storage canonical, the two state machines in their eleven states, the line at its state's
level, the sums within ±32767. -/
def Obligations.EveryStepKeepsTheStateLegal : Prop :=
  ∀ s t : State, s.Inv → step s = .next t → t.Inv

/-- R226, R227 and I5: from a legal state the only fault a step can raise is `ReinitWhileArmed`, and
only from `RX_START` or `TX_INIT n` of an armed unit. -/
def Obligations.OnlyReinitialisationFaults : Prop :=
  ∀ (s : State) (f : Fault), s.Inv → step s = .fault f →
    (f = .reinitWhileArmed .rx ∧ s.rxArmed = true ∧
      s.wordFor s.feed.nextIssuer = some (encode .rxStart)) ∨
    (f = .reinitWhileArmed .tx ∧ s.txArmed = true ∧
      ∃ n, s.wordFor s.feed.nextIssuer = some (encode (.txInit n)))

/-- R20, R32, R116: each register is written only by the operations R20's table names for it. -/
def Obligations.EachRegisterHasItsWriters : Prop :=
  ∀ (i : Instr) (s t : State), exec i s = .next t →
    (t.rxArmed ≠ s.rxArmed → i = .rxStart ∨ i = .rxStop ∨ i = .reset) ∧
    (t.frame ≠ s.frame → (∃ d, i = .rxEdge d) ∨ i = .rxStart ∨ i = .rxStop ∨ i = .reset) ∧
    (t.rx.head ≠ s.rx.head → (∃ d, i = .rxEdge d) ∨ i = .rxStart ∨ i = .reset ∨
      i = .rbReset .rx ∨ ∃ b, i = .rbPush .rx b) ∧
    (t.rx.tail ≠ s.rx.tail → i = .rxPoll ∨ (∃ n, i = .rxRead n) ∨ i = .rxStart ∨ i = .reset ∨
      i = .rbReset .rx ∨ i = .rbPop .rx) ∧
    (t.rx.buf ≠ s.rx.buf → (∃ d, i = .rxEdge d) ∨ ∃ b, i = .rbPush .rx b) ∧
    (t.rx.ovf ≠ s.rx.ovf → (∃ d, i = .rxEdge d) ∨ i = .reset ∨ ∃ b, i = .rbPush .rx b) ∧
    (t.txArmed ≠ s.txArmed → (∃ n, i = .txInit n) ∨ i = .txTeardown ∨ i = .reset) ∧
    (t.btCompare ≠ s.btCompare → (∃ n, i = .txInit n) ∨ i = .reset) ∧
    (t.btCount ≠ s.btCount → i = .btClk ∨ (∃ n, i = .txInit n) ∨ i = .txTeardown ∨ i = .reset) ∧
    ((t.txState ≠ s.txState ∨ t.txShift ≠ s.txShift ∨ t.txLine ≠ s.txLine) →
      i = .txTick ∨ i = .btClk ∨ (∃ n, i = .txInit n) ∨ i = .txTeardown ∨ i = .reset) ∧
    (t.tx.head ≠ s.tx.head → (∃ b, i = .txEnqueue b) ∨ (∃ n, i = .txInit n) ∨ i = .txTeardown ∨
      i = .reset ∨ i = .rbReset .tx ∨ ∃ b, i = .rbPush .tx b) ∧
    (t.tx.tail ≠ s.tx.tail → i = .txTick ∨ i = .btClk ∨ (∃ n, i = .txInit n) ∨ i = .txTeardown ∨
      i = .reset ∨ i = .rbReset .tx ∨ i = .rbPop .tx) ∧
    (t.tx.buf ≠ s.tx.buf → (∃ b, i = .txEnqueue b) ∨ ∃ b, i = .rbPush .tx b) ∧
    (t.tx.ovf ≠ s.tx.ovf → (∃ b, i = .txEnqueue b) ∨ i = .reset ∨ ∃ b, i = .rbPush .tx b) ∧
    (t.tickCount ≠ s.tickCount → i = .txTick ∨ i = .btClk ∨ i = .reset) ∧
    ((t.accDx ≠ s.accDx ∨ t.accDy ≠ s.accDy ∨ t.accWheel ≠ s.accWheel ∨
        t.curButtons ≠ s.curButtons) →
      (∃ l r m dx dy wheel, i = .encReport l r m dx dy wheel) ∨ i = .encReset ∨ i = .reset) ∧
    ((t.lastButtons ≠ s.lastButtons ∨ t.lastSendTick ≠ s.lastSendTick) →
      i = .encReset ∨ i = .reset) ∧
    (t.poll ≠ s.poll → (∃ n, i = .rxRead n) ∨ i = .encSend ∨ i = .reset) ∧
    t.cfg = s.cfg ∧ t.feed = s.feed

/-- R20, R32, R112, R191: the later steps of `RX_READ` and `ENC_SEND`, whatever other agents did in
between. A poll writes at most `rx_tail`, by one. A push step on a ring with room stores its byte in the
head's slot and in no other, moves `tx_head` on and counts the byte; on a full ring it writes `tx_ovf`
alone and emits the overflow; either way the sums are kept. The commit step writes neither ring. The
sequence held between the steps is the model's field (log 15). -/
def Obligations.SequenceStepsHaveTheirWriters : Prop :=
  ∀ s : State,
    (∀ n left, s.poll = .reading n left →
      (s.continuePoll.rx.tail = s.rx.tail ∨
        s.continuePoll.rx.tail = (s.rx.tail + 1) % 2 ^ (s.cfg.rxCapLog2 + 1)) ∧
      { s.continuePoll with
        rx := { s.continuePoll.rx with tail := s.rx.tail }
        poll := s.poll, events := s.events, returned := s.returned } = s) ∧
    (∀ ts b rest k, s.poll = .sending ts (b :: rest) k →
      s.tx.count s.cfg.txCapLog2 ≠ 2 ^ s.cfg.txCapLog2 →
      ∃ t, s.continuePoll = t ∧ t.poll = .sending ts rest (k + 1) ∧ t.returned = none ∧
        memRead .tx t.tx.buf (slot (s.capLog2 .tx) s.tx.head) = b ∧
        (∀ j, j ≠ slot (s.capLog2 .tx) s.tx.head → t.tx.buf.read? j = s.tx.buf.read? j) ∧
        t.tx.head = (s.tx.head + 1) % 2 ^ (s.cfg.txCapLog2 + 1) ∧
        t.tx.tail = s.tx.tail ∧ t.tx.ovf = s.tx.ovf ∧
        { t with tx := s.tx, poll := s.poll, returned := s.returned } = s) ∧
    (∀ ts b rest k, s.poll = .sending ts (b :: rest) k →
      s.tx.count s.cfg.txCapLog2 = 2 ^ s.cfg.txCapLog2 →
      ∃ t, s.continuePoll = t ∧ t.poll = .sending ts rest k ∧ t.returned = none ∧
        t.events = s.events ++ [.overflow .tx b] ∧
        t.tx.ovf.toNat = min (s.tx.ovf.toNat + 1) 0xFFFF ∧
        { t with
          tx := { t.tx with ovf := s.tx.ovf }, poll := s.poll, events := s.events
          returned := s.returned } = s) ∧
    (∀ ts k, s.poll = .sending ts [] k →
      { s.continuePoll with
        accDx := s.accDx, accDy := s.accDy, accWheel := s.accWheel, lastButtons := s.lastButtons
        lastSendTick := s.lastSendTick, poll := s.poll, returned := s.returned } = s)

/-- R241: with both units disarmed, an edge, a timer clock and a tick change no register. -/
def Obligations.DisarmedUnitsAreQuiescent : Prop :=
  ∀ s : State, s.rxArmed = false → s.txArmed = false → ∀ i,
    ((∃ d, i = .rxEdge d) ∨ i = .btClk ∨ i = .txTick) →
    ∃ t, exec i s = .next t ∧ { t with returned := s.returned } = s

/-- R11, R44: the configuration is fixed for the whole run: no step of any agent changes it. -/
def Obligations.ConfigurationIsFixedForTheRun : Prop :=
  ∀ s t : State, step s = .next t → t.cfg = s.cfg

/-- R226: a fault writes nothing, is recorded with its code and the operation word, and is final: no
further step of the run changes anything. -/
def Obligations.FaultedRunIsFinal : Prop :=
  ∀ (r : Run) (f : Fault), r.fault = none → step r.state = .fault f →
    r.advance.state = r.state ∧
    r.advance.fault = some { fault := f, code := f.code, word := r.state.nextWord } ∧
    f.code = (match f with | .reinitWhileArmed _ => 0x10 | .unreachableState _ => 0x11) ∧
    ∀ k, r.advance.advanceN k = r.advance

/-- R228: a refusal writes no register, marks the run, and the mark is kept by every later step. -/
def Obligations.RefusalMarksTheRun : Prop :=
  ∀ (r : Run) (q : Refusal), r.fault = none → step r.state = .refused q →
    r.advance.fault = none ∧
    { r.advance.state with feed := r.state.feed, returned := r.state.returned } = r.state ∧
    ∀ k, (r.advance.advanceN k).markedRefused = true ∧
      r.refusals ++ [{ refusal := q, word := r.state.nextWord }] <+: (r.advance.advanceN k).refusals

/-! ### Words and ports -/

/-- R95, R97, R99, R100, R160: the word of every operation with every operand, and the one source the
agent check lets it through from, `BT_CLK` at cycle level only and `TX_TICK` from `A_BT` at tick level
only. That an internal operation's own word comes from the source `internal` is the model's choice
(log 6), and so is that no source at all may issue `BT_CLK` at tick level (log 19). -/
def Obligations.EveryOperationHasItsWordAndPort : Prop :=
  (∀ d, IssuedAs (.rxEdge d) (0x08000000 ||| (BitVec.ofBool d).setWidth 32) .rxe) ∧
  IssuedAs .rxStart 0x10000000 .poll ∧ IssuedAs .rxStop 0x18000000 .poll ∧
  IssuedAs .rxPoll 0x20000000 .poll ∧
  (∀ n, IssuedAs (.rxRead n) (0x28000000 ||| n.setWidth 32) .poll) ∧
  (∀ n, IssuedAs (.txInit n) (0x40000000 ||| n.setWidth 32) .poll) ∧
  IssuedAs .txTeardown 0x48000000 .poll ∧
  (∀ b, IssuedAs (.txEnqueue b) (0x50000000 ||| b.setWidth 32) .poll) ∧
  (encode .btClk = 0x58000000 ∧ (∀ a, issueCheck .cycle a .btClk = none ↔ a = .bt) ∧
    ∀ a, issueCheck .tick a .btClk = some .internalOperation) ∧
  (encode .txTick = 0x60000000 ∧ (∀ a, issueCheck .tick a .txTick = none ↔ a = .bt) ∧
    ∀ a, issueCheck .cycle a .txTick = none ↔ a = .internal) ∧
  (∀ l r m dx dy wheel, IssuedAs (.encReport l r m dx dy wheel)
    (0x80000000 ||| (BitVec.ofBool m).setWidth 32 <<< 26 ||| (BitVec.ofBool r).setWidth 32 <<< 25
      ||| (BitVec.ofBool l).setWidth 32 <<< 24 ||| dx.setWidth 32 <<< 16 ||| dy.setWidth 32 <<< 8
      ||| wheel.setWidth 32) .poll) ∧
  IssuedAs .encSend 0x88000000 .poll ∧ IssuedAs .encReset 0x90000000 .poll ∧
  (∀ q, IssuedAs (.rbReset q) (match q with | .rx => 0xC0000000 | .tx => 0xC0000100) .internal) ∧
  (∀ q b, IssuedAs (.rbPush q b)
    ((match q with | .rx => 0xC8000000 | .tx => 0xC8000100) ||| b.setWidth 32) .internal) ∧
  (∀ q, IssuedAs (.rbPop q) (match q with | .rx => 0xD0000000 | .tx => 0xD0000100) .internal) ∧
  (∀ q, IssuedAs (.rbCount q) (match q with | .rx => 0xD8000000 | .tx => 0xD8000100) .internal) ∧
  IssuedAs .reset 0xF8000000 .env

/-- R100: a source's sequence is finite or infinite and is issued in order: first its listed words, one
at each issue, and after them nothing if it is finite, the words of an infinite sequence one after
another if it is infinite; no other source's sequence moves. That the sequences stand in `State.feed` in
this form, the infinite ones as a free value, is the model's choice (log 3). -/
def Obligations.ProgramsAreIssuedInOrder : Prop :=
  ∀ (a : Issuer) (f : Feed) (k : Nat),
    (k < (f.program a).words.length →
      (issueN a k f).nextWord a = (f.program a).words[k]?) ∧
    ((f.program a).words.length ≤ k →
      ((f.program a).rest = .ends → (issueN a k f).nextWord a = none) ∧
      ∀ n, (f.program a).rest = .endless n →
        (issueN a k f).nextWord a =
          some (Config.endlessWord a (n + (k - (f.program a).words.length)))) ∧
    ∀ b, b ≠ a → (issueN a k f).program b = f.program b
end

