-- ==== Sys2Proof/Laws/Feed.lean ====
section
/-! SUPPORT. The sources' sequences: the next word and what is left, by the sequence's form, and what an
issue does to each source's sequence (R100). -/

namespace Sys2Proof.Machine

@[simp] theorem Program.head_listed (a : Issuer) (w : Word) (ws : List Word) (r : Rest) :
    Program.head a { words := w :: ws, rest := r } = some w := rfl
@[simp] theorem Program.head_endless (a : Issuer) (k : Nat) :
    Program.head a { words := [], rest := .endless k } = some (Config.endlessWord a k) := rfl
@[simp] theorem Program.head_ended (a : Issuer) :
    Program.head a { words := [], rest := .ends } = none := rfl
@[simp] theorem Program.tail_listed (w : Word) (ws : List Word) (r : Rest) :
    Program.tail { words := w :: ws, rest := r } = { words := ws, rest := r } := rfl
@[simp] theorem Program.tail_endless (k : Nat) :
    Program.tail { words := [], rest := .endless k } = { words := [], rest := .endless (k + 1) } := rfl
@[simp] theorem Program.tail_ended :
    Program.tail { words := [], rest := .ends } = { words := [], rest := .ends } := rfl
@[simp] theorem Program.tail_cons (w : Word) (p : Program) : (p.cons w).tail = p := rfl
@[simp] theorem Program.head_cons (a : Issuer) (w : Word) (p : Program) :
    (p.cons w).head a = some w := rfl

/-- A sequence has ended exactly when it has no next word (R242). -/
theorem Program.ended_iff_head_none (a : Issuer) (p : Program) : p.ended = true ↔ p.head a = none := by
  obtain ⟨ws, r⟩ := p
  cases ws <;> cases r <;> simp [Program.ended]

@[simp] theorem Feed.program_setProgram_same (f : Feed) (a : Issuer) (p : Program) :
    (f.setProgram a p).program a = p := by cases a <;> rfl
theorem Feed.program_setProgram_other (f : Feed) {a b : Issuer} (h : b ≠ a) (p : Program) :
    (f.setProgram a p).program b = f.program b := by
  cases a <;> cases b <;> first | rfl | exact absurd rfl h
@[simp] theorem Feed.program_turn (f : Feed) (a b : Issuer) : (f.turn a).program b = f.program b := by
  cases b <;> rfl

/-- What an issue does to every source's sequence (R100). -/
theorem Feed.program_issue (f : Feed) (a b : Issuer) :
    (f.issue a).program b = if b = a then (f.program a).tail else f.program b := by
  rw [Feed.issue, Feed.program_turn]
  split
  · subst b
    exact Feed.program_setProgram_same ..
  · exact Feed.program_setProgram_other _ ‹_› _

end Sys2Proof.Machine
end

