-- ==== Sys2Proof/Laws/Memory.lean ====
section
/-! SUPPORT. The laws of ring storage (spec/20_memory.md R61, R63): a read after a write, the frame of a
write, and that a write keeps the canonical form. -/

namespace Sys2Proof.Machine

@[simp] theorem Memory.read?_write_same (m : Memory) (i : Nat) (b : Byte) :
    (m.write i b).read? i = some b := by
  induction m with
  | nil => simp [Memory.write, Memory.read?]
  | cons c m ih =>
    obtain ⟨a, d⟩ := c
    unfold Memory.write
    split
    · simp [Memory.read?]
    · split
      · simp [Memory.read?]
      · have : a ≠ i := fun h => by simp_all
        simp [Memory.read?, this, ih]

theorem Memory.read?_write_other (m : Memory) {i j : Nat} (h : j ≠ i) (b : Byte) :
    (m.write i b).read? j = m.read? j := by
  induction m with
  | nil => simp [Memory.write, Memory.read?, h.symm]
  | cons c m ih =>
    obtain ⟨a, d⟩ := c
    unfold Memory.write
    split
    · simp [Memory.read?, h.symm]
    · split
      · next h' => simp [Memory.read?, h.symm, ← h']
      · simp [Memory.read?, ih]

theorem Memory.risesFrom_write (m : Memory) {lo i : Nat} (b : Byte)
    (hm : Memory.risesFrom lo m = true) (hi : lo ≤ i) : Memory.risesFrom lo (m.write i b) = true := by
  induction m generalizing lo with
  | nil => simp [Memory.write, Memory.risesFrom, hi]
  | cons c m ih =>
    obtain ⟨a, d⟩ := c
    simp only [Memory.risesFrom, Bool.and_eq_true, decide_eq_true_eq] at hm
    unfold Memory.write
    split
    · simp only [Memory.risesFrom, Bool.and_eq_true, decide_eq_true_eq]
      exact ⟨hi, by omega, hm.2⟩
    · split
      · next h => subst h; simp [Memory.risesFrom, hm]
      · simp only [Memory.risesFrom, Bool.and_eq_true, decide_eq_true_eq]
        exact ⟨hm.1, ih hm.2 (by omega)⟩

/-- The one operation that writes storage keeps its canonical form. -/
theorem Memory.write_wf (m : Memory) (i : Nat) (b : Byte) (h : m.wf = true) :
    (m.write i b).wf = true :=
  Memory.risesFrom_write m b h (Nat.zero_le i)

/-- A write lists no slot but the one it writes. -/
theorem Memory.mem_write {m : Memory} {i : Nat} {b : Byte} {c : Host.Cell}
    (h : c ∈ m.write i b) : c.1 = i ∨ c ∈ m := by
  induction m with
  | nil => simp [Memory.write] at h; simp [h]
  | cons d m ih =>
    obtain ⟨a, e⟩ := d
    unfold Memory.write at h
    split at h
    · rcases List.mem_cons.mp h with rfl | h
      · exact .inl rfl
      · exact .inr h
    · split at h
      · rcases List.mem_cons.mp h with rfl | h
        · exact .inl rfl
        · exact .inr (List.mem_cons_of_mem _ h)
      · rcases List.mem_cons.mp h with rfl | h
        · exact .inr (List.mem_cons_self ..)
        · exact (ih h).imp id (List.mem_cons_of_mem _)

@[simp] theorem memRead_write_same (q : RingId) (m : Memory) (i : Nat) (b : Byte) :
    memRead q (m.write i b) i = b := by
  simp [memRead]

theorem memRead_write_other (q : RingId) (m : Memory) {i j : Nat} (h : j ≠ i) (b : Byte) :
    memRead q (m.write i b) j = memRead q m j := by
  simp [memRead, Memory.read?_write_other m h]

end Sys2Proof.Machine
end

