-- ==== Sys2Proof/Laws/State.lean ====
section
/-! SUPPORT. One lemma for each field of the state under each named update, true by `rfl`, so that no
proof unfolds a record update; and the laws of reading and writing a ring. -/

namespace Sys2Proof.Machine

/-! ### `State.emit` -/

@[simp] theorem State.emit_cfg (s : State) (e : Event) : (s.emit e).cfg = s.cfg := rfl
@[simp] theorem State.emit_rxArmed (s : State) (e : Event) : (s.emit e).rxArmed = s.rxArmed := rfl
@[simp] theorem State.emit_frame (s : State) (e : Event) : (s.emit e).frame = s.frame := rfl
@[simp] theorem State.emit_rx (s : State) (e : Event) : (s.emit e).rx = s.rx := rfl
@[simp] theorem State.emit_txArmed (s : State) (e : Event) : (s.emit e).txArmed = s.txArmed := rfl
@[simp] theorem State.emit_btCompare (s : State) (e : Event) :
    (s.emit e).btCompare = s.btCompare := rfl
@[simp] theorem State.emit_btCount (s : State) (e : Event) : (s.emit e).btCount = s.btCount := rfl
@[simp] theorem State.emit_txState (s : State) (e : Event) : (s.emit e).txState = s.txState := rfl
@[simp] theorem State.emit_txShift (s : State) (e : Event) : (s.emit e).txShift = s.txShift := rfl
@[simp] theorem State.emit_txLine (s : State) (e : Event) : (s.emit e).txLine = s.txLine := rfl
@[simp] theorem State.emit_tx (s : State) (e : Event) : (s.emit e).tx = s.tx := rfl
@[simp] theorem State.emit_tickCount (s : State) (e : Event) :
    (s.emit e).tickCount = s.tickCount := rfl
@[simp] theorem State.emit_accDx (s : State) (e : Event) : (s.emit e).accDx = s.accDx := rfl
@[simp] theorem State.emit_accDy (s : State) (e : Event) : (s.emit e).accDy = s.accDy := rfl
@[simp] theorem State.emit_accWheel (s : State) (e : Event) :
    (s.emit e).accWheel = s.accWheel := rfl
@[simp] theorem State.emit_curButtons (s : State) (e : Event) :
    (s.emit e).curButtons = s.curButtons := rfl
@[simp] theorem State.emit_lastButtons (s : State) (e : Event) :
    (s.emit e).lastButtons = s.lastButtons := rfl
@[simp] theorem State.emit_lastSendTick (s : State) (e : Event) :
    (s.emit e).lastSendTick = s.lastSendTick := rfl
@[simp] theorem State.emit_poll (s : State) (e : Event) : (s.emit e).poll = s.poll := rfl
@[simp] theorem State.emit_events (s : State) (e : Event) :
    (s.emit e).events = s.events ++ [e] := rfl
@[simp] theorem State.emit_returned (s : State) (e : Event) :
    (s.emit e).returned = s.returned := rfl
@[simp] theorem State.emit_feed (s : State) (e : Event) : (s.emit e).feed = s.feed := rfl

/-! ### `State.ret` -/

@[simp] theorem State.ret_cfg (s : State) (r : Result) : (s.ret r).cfg = s.cfg := rfl
@[simp] theorem State.ret_rxArmed (s : State) (r : Result) : (s.ret r).rxArmed = s.rxArmed := rfl
@[simp] theorem State.ret_frame (s : State) (r : Result) : (s.ret r).frame = s.frame := rfl
@[simp] theorem State.ret_rx (s : State) (r : Result) : (s.ret r).rx = s.rx := rfl
@[simp] theorem State.ret_txArmed (s : State) (r : Result) : (s.ret r).txArmed = s.txArmed := rfl
@[simp] theorem State.ret_btCompare (s : State) (r : Result) :
    (s.ret r).btCompare = s.btCompare := rfl
@[simp] theorem State.ret_btCount (s : State) (r : Result) : (s.ret r).btCount = s.btCount := rfl
@[simp] theorem State.ret_txState (s : State) (r : Result) : (s.ret r).txState = s.txState := rfl
@[simp] theorem State.ret_txShift (s : State) (r : Result) : (s.ret r).txShift = s.txShift := rfl
@[simp] theorem State.ret_txLine (s : State) (r : Result) : (s.ret r).txLine = s.txLine := rfl
@[simp] theorem State.ret_tx (s : State) (r : Result) : (s.ret r).tx = s.tx := rfl
@[simp] theorem State.ret_tickCount (s : State) (r : Result) :
    (s.ret r).tickCount = s.tickCount := rfl
@[simp] theorem State.ret_accDx (s : State) (r : Result) : (s.ret r).accDx = s.accDx := rfl
@[simp] theorem State.ret_accDy (s : State) (r : Result) : (s.ret r).accDy = s.accDy := rfl
@[simp] theorem State.ret_accWheel (s : State) (r : Result) : (s.ret r).accWheel = s.accWheel := rfl
@[simp] theorem State.ret_curButtons (s : State) (r : Result) :
    (s.ret r).curButtons = s.curButtons := rfl
@[simp] theorem State.ret_lastButtons (s : State) (r : Result) :
    (s.ret r).lastButtons = s.lastButtons := rfl
@[simp] theorem State.ret_lastSendTick (s : State) (r : Result) :
    (s.ret r).lastSendTick = s.lastSendTick := rfl
@[simp] theorem State.ret_poll (s : State) (r : Result) : (s.ret r).poll = s.poll := rfl
@[simp] theorem State.ret_events (s : State) (r : Result) : (s.ret r).events = s.events := rfl
@[simp] theorem State.ret_returned (s : State) (r : Result) : (s.ret r).returned = some r := rfl
@[simp] theorem State.ret_feed (s : State) (r : Result) : (s.ret r).feed = s.feed := rfl

/-! ### `State.noRet` -/

@[simp] theorem State.noRet_cfg (s : State) : (s.noRet).cfg = s.cfg := rfl
@[simp] theorem State.noRet_rxArmed (s : State) : (s.noRet).rxArmed = s.rxArmed := rfl
@[simp] theorem State.noRet_frame (s : State) : (s.noRet).frame = s.frame := rfl
@[simp] theorem State.noRet_rx (s : State) : (s.noRet).rx = s.rx := rfl
@[simp] theorem State.noRet_txArmed (s : State) : (s.noRet).txArmed = s.txArmed := rfl
@[simp] theorem State.noRet_btCompare (s : State) : (s.noRet).btCompare = s.btCompare := rfl
@[simp] theorem State.noRet_btCount (s : State) : (s.noRet).btCount = s.btCount := rfl
@[simp] theorem State.noRet_txState (s : State) : (s.noRet).txState = s.txState := rfl
@[simp] theorem State.noRet_txShift (s : State) : (s.noRet).txShift = s.txShift := rfl
@[simp] theorem State.noRet_txLine (s : State) : (s.noRet).txLine = s.txLine := rfl
@[simp] theorem State.noRet_tx (s : State) : (s.noRet).tx = s.tx := rfl
@[simp] theorem State.noRet_tickCount (s : State) : (s.noRet).tickCount = s.tickCount := rfl
@[simp] theorem State.noRet_accDx (s : State) : (s.noRet).accDx = s.accDx := rfl
@[simp] theorem State.noRet_accDy (s : State) : (s.noRet).accDy = s.accDy := rfl
@[simp] theorem State.noRet_accWheel (s : State) : (s.noRet).accWheel = s.accWheel := rfl
@[simp] theorem State.noRet_curButtons (s : State) : (s.noRet).curButtons = s.curButtons := rfl
@[simp] theorem State.noRet_lastButtons (s : State) : (s.noRet).lastButtons = s.lastButtons := rfl
@[simp] theorem State.noRet_lastSendTick (s : State) :
    (s.noRet).lastSendTick = s.lastSendTick := rfl
@[simp] theorem State.noRet_poll (s : State) : (s.noRet).poll = s.poll := rfl
@[simp] theorem State.noRet_events (s : State) : (s.noRet).events = s.events := rfl
@[simp] theorem State.noRet_returned (s : State) : (s.noRet).returned = none := rfl
@[simp] theorem State.noRet_feed (s : State) : (s.noRet).feed = s.feed := rfl

/-! ### `State.frameReset` -/

@[simp] theorem State.frameReset_cfg (s : State) : (s.frameReset).cfg = s.cfg := rfl
@[simp] theorem State.frameReset_rxArmed (s : State) : (s.frameReset).rxArmed = s.rxArmed := rfl
@[simp] theorem State.frameReset_frame (s : State) : (s.frameReset).frame = BitFrame.initial := rfl
@[simp] theorem State.frameReset_rx (s : State) : (s.frameReset).rx = s.rx := rfl
@[simp] theorem State.frameReset_txArmed (s : State) : (s.frameReset).txArmed = s.txArmed := rfl
@[simp] theorem State.frameReset_btCompare (s : State) :
    (s.frameReset).btCompare = s.btCompare := rfl
@[simp] theorem State.frameReset_btCount (s : State) : (s.frameReset).btCount = s.btCount := rfl
@[simp] theorem State.frameReset_txState (s : State) : (s.frameReset).txState = s.txState := rfl
@[simp] theorem State.frameReset_txShift (s : State) : (s.frameReset).txShift = s.txShift := rfl
@[simp] theorem State.frameReset_txLine (s : State) : (s.frameReset).txLine = s.txLine := rfl
@[simp] theorem State.frameReset_tx (s : State) : (s.frameReset).tx = s.tx := rfl
@[simp] theorem State.frameReset_tickCount (s : State) :
    (s.frameReset).tickCount = s.tickCount := rfl
@[simp] theorem State.frameReset_accDx (s : State) : (s.frameReset).accDx = s.accDx := rfl
@[simp] theorem State.frameReset_accDy (s : State) : (s.frameReset).accDy = s.accDy := rfl
@[simp] theorem State.frameReset_accWheel (s : State) : (s.frameReset).accWheel = s.accWheel := rfl
@[simp] theorem State.frameReset_curButtons (s : State) :
    (s.frameReset).curButtons = s.curButtons := rfl
@[simp] theorem State.frameReset_lastButtons (s : State) :
    (s.frameReset).lastButtons = s.lastButtons := rfl
@[simp] theorem State.frameReset_lastSendTick (s : State) :
    (s.frameReset).lastSendTick = s.lastSendTick := rfl
@[simp] theorem State.frameReset_poll (s : State) : (s.frameReset).poll = s.poll := rfl
@[simp] theorem State.frameReset_events (s : State) : (s.frameReset).events = s.events := rfl
@[simp] theorem State.frameReset_returned (s : State) : (s.frameReset).returned = s.returned := rfl
@[simp] theorem State.frameReset_feed (s : State) : (s.frameReset).feed = s.feed := rfl

/-! ### `State.turn` -/

@[simp] theorem State.turn_cfg (s : State) (a : Issuer) : (s.turn a).cfg = s.cfg := rfl
@[simp] theorem State.turn_rxArmed (s : State) (a : Issuer) : (s.turn a).rxArmed = s.rxArmed := rfl
@[simp] theorem State.turn_frame (s : State) (a : Issuer) : (s.turn a).frame = s.frame := rfl
@[simp] theorem State.turn_rx (s : State) (a : Issuer) : (s.turn a).rx = s.rx := rfl
@[simp] theorem State.turn_txArmed (s : State) (a : Issuer) : (s.turn a).txArmed = s.txArmed := rfl
@[simp] theorem State.turn_btCompare (s : State) (a : Issuer) :
    (s.turn a).btCompare = s.btCompare := rfl
@[simp] theorem State.turn_btCount (s : State) (a : Issuer) : (s.turn a).btCount = s.btCount := rfl
@[simp] theorem State.turn_txState (s : State) (a : Issuer) : (s.turn a).txState = s.txState := rfl
@[simp] theorem State.turn_txShift (s : State) (a : Issuer) : (s.turn a).txShift = s.txShift := rfl
@[simp] theorem State.turn_txLine (s : State) (a : Issuer) : (s.turn a).txLine = s.txLine := rfl
@[simp] theorem State.turn_tx (s : State) (a : Issuer) : (s.turn a).tx = s.tx := rfl
@[simp] theorem State.turn_tickCount (s : State) (a : Issuer) :
    (s.turn a).tickCount = s.tickCount := rfl
@[simp] theorem State.turn_accDx (s : State) (a : Issuer) : (s.turn a).accDx = s.accDx := rfl
@[simp] theorem State.turn_accDy (s : State) (a : Issuer) : (s.turn a).accDy = s.accDy := rfl
@[simp] theorem State.turn_accWheel (s : State) (a : Issuer) :
    (s.turn a).accWheel = s.accWheel := rfl
@[simp] theorem State.turn_curButtons (s : State) (a : Issuer) :
    (s.turn a).curButtons = s.curButtons := rfl
@[simp] theorem State.turn_lastButtons (s : State) (a : Issuer) :
    (s.turn a).lastButtons = s.lastButtons := rfl
@[simp] theorem State.turn_lastSendTick (s : State) (a : Issuer) :
    (s.turn a).lastSendTick = s.lastSendTick := rfl
@[simp] theorem State.turn_poll (s : State) (a : Issuer) : (s.turn a).poll = s.poll := rfl
@[simp] theorem State.turn_events (s : State) (a : Issuer) : (s.turn a).events = s.events := rfl
@[simp] theorem State.turn_returned (s : State) (a : Issuer) : (s.turn a).returned = none := rfl
@[simp] theorem State.turn_feed (s : State) (a : Issuer) : (s.turn a).feed = s.feed.turn a := rfl

/-! ### `State.issue` -/

@[simp] theorem State.issue_cfg (s : State) (a : Issuer) : (s.issue a).cfg = s.cfg := rfl
@[simp] theorem State.issue_rxArmed (s : State) (a : Issuer) :
    (s.issue a).rxArmed = s.rxArmed := rfl
@[simp] theorem State.issue_frame (s : State) (a : Issuer) : (s.issue a).frame = s.frame := rfl
@[simp] theorem State.issue_rx (s : State) (a : Issuer) : (s.issue a).rx = s.rx := rfl
@[simp] theorem State.issue_txArmed (s : State) (a : Issuer) :
    (s.issue a).txArmed = s.txArmed := rfl
@[simp] theorem State.issue_btCompare (s : State) (a : Issuer) :
    (s.issue a).btCompare = s.btCompare := rfl
@[simp] theorem State.issue_btCount (s : State) (a : Issuer) :
    (s.issue a).btCount = s.btCount := rfl
@[simp] theorem State.issue_txState (s : State) (a : Issuer) :
    (s.issue a).txState = s.txState := rfl
@[simp] theorem State.issue_txShift (s : State) (a : Issuer) :
    (s.issue a).txShift = s.txShift := rfl
@[simp] theorem State.issue_txLine (s : State) (a : Issuer) : (s.issue a).txLine = s.txLine := rfl
@[simp] theorem State.issue_tx (s : State) (a : Issuer) : (s.issue a).tx = s.tx := rfl
@[simp] theorem State.issue_tickCount (s : State) (a : Issuer) :
    (s.issue a).tickCount = s.tickCount := rfl
@[simp] theorem State.issue_accDx (s : State) (a : Issuer) : (s.issue a).accDx = s.accDx := rfl
@[simp] theorem State.issue_accDy (s : State) (a : Issuer) : (s.issue a).accDy = s.accDy := rfl
@[simp] theorem State.issue_accWheel (s : State) (a : Issuer) :
    (s.issue a).accWheel = s.accWheel := rfl
@[simp] theorem State.issue_curButtons (s : State) (a : Issuer) :
    (s.issue a).curButtons = s.curButtons := rfl
@[simp] theorem State.issue_lastButtons (s : State) (a : Issuer) :
    (s.issue a).lastButtons = s.lastButtons := rfl
@[simp] theorem State.issue_lastSendTick (s : State) (a : Issuer) :
    (s.issue a).lastSendTick = s.lastSendTick := rfl
@[simp] theorem State.issue_poll (s : State) (a : Issuer) : (s.issue a).poll = s.poll := rfl
@[simp] theorem State.issue_events (s : State) (a : Issuer) : (s.issue a).events = s.events := rfl
@[simp] theorem State.issue_returned (s : State) (a : Issuer) : (s.issue a).returned = none := rfl
@[simp] theorem State.issue_feed (s : State) (a : Issuer) : (s.issue a).feed = s.feed.issue a := rfl

/-! ### `State.countTick` -/

@[simp] theorem State.countTick_cfg (s : State) : s.countTick.cfg = s.cfg := rfl
@[simp] theorem State.countTick_rxArmed (s : State) : s.countTick.rxArmed = s.rxArmed := rfl
@[simp] theorem State.countTick_frame (s : State) : s.countTick.frame = s.frame := rfl
@[simp] theorem State.countTick_rx (s : State) : s.countTick.rx = s.rx := rfl
@[simp] theorem State.countTick_txArmed (s : State) : s.countTick.txArmed = s.txArmed := rfl
@[simp] theorem State.countTick_btCompare (s : State) : s.countTick.btCompare = s.btCompare := rfl
@[simp] theorem State.countTick_btCount (s : State) : s.countTick.btCount = s.btCount := rfl
@[simp] theorem State.countTick_txState (s : State) : s.countTick.txState = s.txState := rfl
@[simp] theorem State.countTick_txShift (s : State) : s.countTick.txShift = s.txShift := rfl
@[simp] theorem State.countTick_txLine (s : State) : s.countTick.txLine = s.txLine := rfl
@[simp] theorem State.countTick_tx (s : State) : s.countTick.tx = s.tx := rfl
@[simp] theorem State.countTick_tickCount (s : State) : s.countTick.tickCount = s.tickCount + 1 := rfl
@[simp] theorem State.countTick_accDx (s : State) : s.countTick.accDx = s.accDx := rfl
@[simp] theorem State.countTick_accDy (s : State) : s.countTick.accDy = s.accDy := rfl
@[simp] theorem State.countTick_accWheel (s : State) : s.countTick.accWheel = s.accWheel := rfl
@[simp] theorem State.countTick_curButtons (s : State) : s.countTick.curButtons = s.curButtons := rfl
@[simp] theorem State.countTick_lastButtons (s : State) : s.countTick.lastButtons = s.lastButtons := rfl
@[simp] theorem State.countTick_lastSendTick (s : State) : s.countTick.lastSendTick = s.lastSendTick := rfl
@[simp] theorem State.countTick_poll (s : State) : s.countTick.poll = s.poll := rfl
@[simp] theorem State.countTick_events (s : State) : s.countTick.events = s.events := rfl
@[simp] theorem State.countTick_returned (s : State) : s.countTick.returned = s.returned := rfl
@[simp] theorem State.countTick_feed (s : State) : s.countTick.feed = s.feed := rfl

/-! ### `State.clearBtCount` -/

@[simp] theorem State.clearBtCount_cfg (s : State) : s.clearBtCount.cfg = s.cfg := rfl
@[simp] theorem State.clearBtCount_rxArmed (s : State) : s.clearBtCount.rxArmed = s.rxArmed := rfl
@[simp] theorem State.clearBtCount_frame (s : State) : s.clearBtCount.frame = s.frame := rfl
@[simp] theorem State.clearBtCount_rx (s : State) : s.clearBtCount.rx = s.rx := rfl
@[simp] theorem State.clearBtCount_txArmed (s : State) : s.clearBtCount.txArmed = s.txArmed := rfl
@[simp] theorem State.clearBtCount_btCompare (s : State) : s.clearBtCount.btCompare = s.btCompare := rfl
@[simp] theorem State.clearBtCount_btCount (s : State) : s.clearBtCount.btCount = 0 := rfl
@[simp] theorem State.clearBtCount_txState (s : State) : s.clearBtCount.txState = s.txState := rfl
@[simp] theorem State.clearBtCount_txShift (s : State) : s.clearBtCount.txShift = s.txShift := rfl
@[simp] theorem State.clearBtCount_txLine (s : State) : s.clearBtCount.txLine = s.txLine := rfl
@[simp] theorem State.clearBtCount_tx (s : State) : s.clearBtCount.tx = s.tx := rfl
@[simp] theorem State.clearBtCount_tickCount (s : State) : s.clearBtCount.tickCount = s.tickCount := rfl
@[simp] theorem State.clearBtCount_accDx (s : State) : s.clearBtCount.accDx = s.accDx := rfl
@[simp] theorem State.clearBtCount_accDy (s : State) : s.clearBtCount.accDy = s.accDy := rfl
@[simp] theorem State.clearBtCount_accWheel (s : State) : s.clearBtCount.accWheel = s.accWheel := rfl
@[simp] theorem State.clearBtCount_curButtons (s : State) : s.clearBtCount.curButtons = s.curButtons := rfl
@[simp] theorem State.clearBtCount_lastButtons (s : State) : s.clearBtCount.lastButtons = s.lastButtons := rfl
@[simp] theorem State.clearBtCount_lastSendTick (s : State) : s.clearBtCount.lastSendTick = s.lastSendTick := rfl
@[simp] theorem State.clearBtCount_poll (s : State) : s.clearBtCount.poll = s.poll := rfl
@[simp] theorem State.clearBtCount_events (s : State) : s.clearBtCount.events = s.events := rfl
@[simp] theorem State.clearBtCount_returned (s : State) : s.clearBtCount.returned = s.returned := rfl
@[simp] theorem State.clearBtCount_feed (s : State) : s.clearBtCount.feed = s.feed := rfl

/-! ### `State.setRing` -/

@[simp] theorem State.setRing_cfg (s : State) (q : RingId) (r : Ring) :
    (s.setRing q r).cfg = s.cfg := by cases q <;> rfl
@[simp] theorem State.setRing_rxArmed (s : State) (q : RingId) (r : Ring) :
    (s.setRing q r).rxArmed = s.rxArmed := by cases q <;> rfl
@[simp] theorem State.setRing_frame (s : State) (q : RingId) (r : Ring) :
    (s.setRing q r).frame = s.frame := by cases q <;> rfl
@[simp] theorem State.setRing_txArmed (s : State) (q : RingId) (r : Ring) :
    (s.setRing q r).txArmed = s.txArmed := by cases q <;> rfl
@[simp] theorem State.setRing_btCompare (s : State) (q : RingId) (r : Ring) :
    (s.setRing q r).btCompare = s.btCompare := by cases q <;> rfl
@[simp] theorem State.setRing_btCount (s : State) (q : RingId) (r : Ring) :
    (s.setRing q r).btCount = s.btCount := by cases q <;> rfl
@[simp] theorem State.setRing_txState (s : State) (q : RingId) (r : Ring) :
    (s.setRing q r).txState = s.txState := by cases q <;> rfl
@[simp] theorem State.setRing_txShift (s : State) (q : RingId) (r : Ring) :
    (s.setRing q r).txShift = s.txShift := by cases q <;> rfl
@[simp] theorem State.setRing_txLine (s : State) (q : RingId) (r : Ring) :
    (s.setRing q r).txLine = s.txLine := by cases q <;> rfl
@[simp] theorem State.setRing_tickCount (s : State) (q : RingId) (r : Ring) :
    (s.setRing q r).tickCount = s.tickCount := by cases q <;> rfl
@[simp] theorem State.setRing_accDx (s : State) (q : RingId) (r : Ring) :
    (s.setRing q r).accDx = s.accDx := by cases q <;> rfl
@[simp] theorem State.setRing_accDy (s : State) (q : RingId) (r : Ring) :
    (s.setRing q r).accDy = s.accDy := by cases q <;> rfl
@[simp] theorem State.setRing_accWheel (s : State) (q : RingId) (r : Ring) :
    (s.setRing q r).accWheel = s.accWheel := by cases q <;> rfl
@[simp] theorem State.setRing_curButtons (s : State) (q : RingId) (r : Ring) :
    (s.setRing q r).curButtons = s.curButtons := by cases q <;> rfl
@[simp] theorem State.setRing_lastButtons (s : State) (q : RingId) (r : Ring) :
    (s.setRing q r).lastButtons = s.lastButtons := by cases q <;> rfl
@[simp] theorem State.setRing_lastSendTick (s : State) (q : RingId) (r : Ring) :
    (s.setRing q r).lastSendTick = s.lastSendTick := by cases q <;> rfl
@[simp] theorem State.setRing_poll (s : State) (q : RingId) (r : Ring) :
    (s.setRing q r).poll = s.poll := by cases q <;> rfl
@[simp] theorem State.setRing_events (s : State) (q : RingId) (r : Ring) :
    (s.setRing q r).events = s.events := by cases q <;> rfl
@[simp] theorem State.setRing_returned (s : State) (q : RingId) (r : Ring) :
    (s.setRing q r).returned = s.returned := by cases q <;> rfl
@[simp] theorem State.setRing_feed (s : State) (q : RingId) (r : Ring) :
    (s.setRing q r).feed = s.feed := by cases q <;> rfl

@[simp] theorem State.ring_rx (s : State) : s.ring .rx = s.rx := rfl
@[simp] theorem State.ring_tx (s : State) : s.ring .tx = s.tx := rfl
@[simp] theorem State.setRing_rx_rx (s : State) (r : Ring) : (s.setRing .rx r).rx = r := rfl
@[simp] theorem State.setRing_rx_tx (s : State) (r : Ring) : (s.setRing .rx r).tx = s.tx := rfl
@[simp] theorem State.setRing_tx_rx (s : State) (r : Ring) : (s.setRing .tx r).rx = s.rx := rfl
@[simp] theorem State.setRing_tx_tx (s : State) (r : Ring) : (s.setRing .tx r).tx = r := rfl
@[simp] theorem State.capLog2_rx (s : State) : s.capLog2 .rx = s.cfg.rxCapLog2 := rfl
@[simp] theorem State.capLog2_tx (s : State) : s.capLog2 .tx = s.cfg.txCapLog2 := rfl

@[simp] theorem State.ring_setRing (s : State) (q : RingId) (r : Ring) :
    (s.setRing q r).ring q = r := by
  cases q <;> rfl

theorem State.ring_setRing_of_ne (s : State) {p q : RingId} (h : p ≠ q) (r : Ring) :
    (s.setRing q r).ring p = s.ring p := by
  cases p <;> cases q <;> first | rfl | exact absurd rfl h

@[simp] theorem State.setRing_ring (s : State) (q : RingId) : s.setRing q (s.ring q) = s := by
  cases q <;> rfl

@[simp] theorem State.setRing_capLog2 (s : State) (p q : RingId) (r : Ring) :
    (s.setRing q r).capLog2 p = s.capLog2 p := by
  cases q <;> rfl

/-! ### Ring updates -/

@[simp] theorem Ring.reset_head (r : Ring) : r.reset.head = 0 := rfl
@[simp] theorem Ring.reset_tail (r : Ring) : r.reset.tail = 0 := rfl
@[simp] theorem Ring.reset_buf (r : Ring) : r.reset.buf = r.buf := rfl
@[simp] theorem Ring.reset_ovf (r : Ring) : r.reset.ovf = r.ovf := rfl
@[simp] theorem Ring.store_head (n : Nat) (r : Ring) (b : Byte) :
    (r.store n b).head = nextIndex n r.head := rfl
@[simp] theorem Ring.store_tail (n : Nat) (r : Ring) (b : Byte) : (r.store n b).tail = r.tail := rfl
@[simp] theorem Ring.store_buf (n : Nat) (r : Ring) (b : Byte) :
    (r.store n b).buf = r.buf.write (slot n r.head) b := rfl
@[simp] theorem Ring.store_ovf (n : Nat) (r : Ring) (b : Byte) : (r.store n b).ovf = r.ovf := rfl
@[simp] theorem Ring.drop_head (r : Ring) : r.drop.head = r.head := rfl
@[simp] theorem Ring.drop_tail (r : Ring) : r.drop.tail = r.tail := rfl
@[simp] theorem Ring.drop_buf (r : Ring) : r.drop.buf = r.buf := rfl
@[simp] theorem Ring.drop_ovf (r : Ring) : r.drop.ovf = satInc16 r.ovf := rfl
@[simp] theorem Ring.advance_head (n : Nat) (r : Ring) : (r.advance n).head = r.head := rfl
@[simp] theorem Ring.advance_tail (n : Nat) (r : Ring) :
    (r.advance n).tail = nextIndex n r.tail := rfl
@[simp] theorem Ring.advance_buf (n : Nat) (r : Ring) : (r.advance n).buf = r.buf := rfl
@[simp] theorem Ring.advance_ovf (n : Nat) (r : Ring) : (r.advance n).ovf = r.ovf := rfl

end Sys2Proof.Machine
end

