-- ==== Sys2Proof/Laws/Ring.lean ====
section
/-! SUPPORT. What the ring primitives can do, said once (spec/41_ring_buffer.md R111 to R113), the
arithmetic of the count, and that every primitive keeps a ring legal. -/

namespace Sys2Proof.Machine

theorem cap_pos (n : Nat) : 0 < cap n := Nat.two_pow_pos n

theorem wrap_eq (n : Nat) : wrap n = 2 * cap n := by
  simp [wrap, cap, Nat.pow_succ, Nat.mul_comm]

/-- The count for indices within their width: the distance, around the wrap if need be (R31). -/
theorem Ring.count_eq {n : Nat} {r : Ring} (hh : r.head < wrap n) (ht : r.tail < wrap n) :
    r.count n = if r.tail ≤ r.head then r.head - r.tail else r.head + wrap n - r.tail := by
  unfold Ring.count
  rw [Nat.mod_eq_of_lt ht]
  split
  · rw [show r.head + (wrap n - r.tail) = (r.head - r.tail) + wrap n by omega, Nat.add_mod_right,
      Nat.mod_eq_of_lt (by omega)]
  · rw [Nat.mod_eq_of_lt (by omega)]; omega

theorem nextIndex_lt (n idx : Nat) : nextIndex n idx < wrap n :=
  Nat.mod_lt _ (by have := cap_pos n; have := wrap_eq n; omega)

theorem nextIndex_eq {n idx : Nat} (h : idx < wrap n) :
    nextIndex n idx = if idx + 1 = wrap n then 0 else idx + 1 := by
  unfold nextIndex
  split
  · next h' => rw [h', Nat.mod_self]
  · rw [Nat.mod_eq_of_lt (by omega)]

theorem slot_lt (n idx : Nat) : slot n idx < cap n := Nat.mod_lt _ (cap_pos n)

theorem slot_nextIndex_add (n idx k : Nat) (h : idx < wrap n) :
    slot n (nextIndex n idx + k) = slot n (idx + (k + 1)) := by
  rw [nextIndex_eq h]
  split
  · next h' =>
    have e : idx + (k + 1) = k + cap n * 2 := by have := wrap_eq n; omega
    simp [slot, e]
  · simp [slot, Nat.add_assoc, Nat.add_comm 1 k]

/-- The head's slot is the one `count` places after the tail's. -/
theorem slot_tail_add_count {n : Nat} {r : Ring} (hh : r.head < wrap n) (ht : r.tail < wrap n) :
    slot n (r.tail + r.count n) = slot n r.head := by
  rw [Ring.count_eq hh ht]
  split
  · congr 1; omega
  · have e : r.tail + (r.head + wrap n - r.tail) = r.head + cap n * 2 := by
      have := wrap_eq n; omega
    simp [slot, e]

/-- Two places less than `CAP` apart have different slots. -/
theorem slot_add_ne {n a j k : Nat} (h : j < k) (h' : k - j < cap n) :
    slot n (a + j) ≠ slot n (a + k) := by
  intro e
  have e' : (a + j) % cap n = (a + k) % cap n := e
  have d := (Nat.modEq_iff_dvd' (by omega)).mp (show (a + j) ≡ (a + k) [MOD cap n] from e')
  have := Nat.le_of_dvd (by omega) d
  omega

theorem Ring.count_store {n : Nat} {r : Ring} (hh : r.head < wrap n) (ht : r.tail < wrap n)
    (hc : r.count n < cap n) (b : Byte) : (r.store n b).count n = r.count n + 1 := by
  have w := wrap_eq n
  rw [Ring.count_eq hh ht] at hc ⊢
  rw [Ring.count_eq (by simpa using nextIndex_lt n r.head) (by simpa using ht)]
  simp only [Ring.store_head, Ring.store_tail, nextIndex_eq hh]
  split at hc <;> split <;> split <;> omega

theorem Ring.count_advance {n : Nat} {r : Ring} (hh : r.head < wrap n) (ht : r.tail < wrap n)
    (hc : 0 < r.count n) : (r.advance n).count n = r.count n - 1 := by
  have w := wrap_eq n
  rw [Ring.count_eq hh ht] at hc ⊢
  rw [Ring.count_eq (by simpa using hh) (by simpa using nextIndex_lt n r.tail)]
  simp only [Ring.advance_head, Ring.advance_tail, nextIndex_eq ht]
  split at hc <;> split <;> split <;> omega

@[simp] theorem Ring.count_reset (n : Nat) (r : Ring) : r.reset.count n = 0 := by
  simp [Ring.count]

theorem Ring.ok_reset {n : Nat} {r : Ring} (h : r.Ok n) : r.reset.Ok n := by
  obtain ⟨_, _, _, hw, hs, _⟩ := h
  have := wrap_eq n
  have := cap_pos n
  refine ⟨by simp; omega, by simp; omega, by simp, hw, hs, by simp⟩

theorem Ring.ok_drop {n : Nat} {r : Ring} (h : r.Ok n) : r.drop.Ok n := h

theorem Ring.ok_store {n : Nat} {r : Ring} (h : r.Ok n) (hf : r.isFull n = false) (b : Byte) :
    (r.store n b).Ok n := by
  obtain ⟨hh, ht, hc, hw, hs, hl⟩ := h
  have hc' : r.count n < cap n := by
    simp only [Ring.isFull, beq_eq_false_iff_ne, ne_eq] at hf; omega
  have cs := Ring.count_store hh ht hc' b
  refine ⟨nextIndex_lt _ _, ht, by omega, Memory.write_wf _ _ _ hw, fun c hm => ?_, fun k hk => ?_⟩
  · rcases Memory.mem_write hm with e | hm
    · exact e ▸ slot_lt _ _
    · exact hs c hm
  · rw [cs] at hk
    simp only [Ring.store_buf, Ring.store_tail]
    rw [← slot_tail_add_count hh ht]
    by_cases e : k = r.count n
    · subst e; simp
    · rw [Memory.read?_write_other _ (slot_add_ne (by omega) (by omega))]
      exact hl k (by omega)

theorem Ring.ok_advance {n : Nat} {r : Ring} (h : r.Ok n) (he : r.isEmpty n = false) :
    (r.advance n).Ok n := by
  obtain ⟨hh, ht, hc, hw, hs, hl⟩ := h
  have hc' : 0 < r.count n := by
    simp only [Ring.isEmpty, beq_eq_false_iff_ne, ne_eq] at he; omega
  have cs := Ring.count_advance hh ht hc'
  refine ⟨hh, nextIndex_lt _ _, by omega, hw, hs, fun k hk => ?_⟩
  simp only [Ring.advance_buf, Ring.advance_tail]
  rw [slot_nextIndex_add _ _ _ ht]
  exact hl (k + 1) (by omega)

/-- Everything a push can do (R112). -/
theorem State.pushByte_cases (s : State) (q : RingId) (b : Byte) :
    ((s.ring q).isFull (s.capLog2 q) = true ∧
      s.pushByte q b = (.dropped, (s.setRing q (s.ring q).drop).emit (.overflow q b))) ∨
    ((s.ring q).isFull (s.capLog2 q) = false ∧
      s.pushByte q b = (.ok, s.setRing q ((s.ring q).store (s.capLog2 q) b))) := by
  unfold State.pushByte
  split
  · next h => exact .inl ⟨h, rfl⟩
  · next h => exact .inr ⟨by simpa using h, rfl⟩

/-- Everything a pop can do (R113). -/
theorem State.popByte_cases (s : State) (q : RingId) :
    ((s.ring q).isEmpty (s.capLog2 q) = true ∧ s.popByte q = (.empty, s)) ∨
    ((s.ring q).isEmpty (s.capLog2 q) = false ∧
      s.popByte q = (.byte ((s.ring q).oldest (s.capLog2 q) q),
        s.setRing q ((s.ring q).advance (s.capLog2 q)))) := by
  unfold State.popByte
  split
  · next h => exact .inl ⟨h, rfl⟩
  · next h => exact .inr ⟨by simpa using h, rfl⟩

end Sys2Proof.Machine
end

