-- ==== Sys2Proof/Laws/Step.lean ====
section
/-! SUPPORT. What the shared operations and a step can do, said once: the receiver's transition, a poll,
the transmitter's transition, a push step, a turn. Proofs cite these and do not unfold the operations. -/

namespace Sys2Proof.Machine

/-- Everything an armed edge can do (R132). -/
theorem State.edgeArm_cases (s : State) (d : Bool) :
    (s.frame.bitpos.toNat = 0 ∧ s.edgeArm d = some (s.awaitStartArm d)) ∨
    (1 ≤ s.frame.bitpos.toNat ∧ s.frame.bitpos.toNat ≤ 8 ∧ s.edgeArm d = some (s.bitArm d)) ∨
    (s.frame.bitpos.toNat = 9 ∧ s.edgeArm d = some (s.parityArm d)) ∨
    (s.frame.bitpos.toNat = 10 ∧ s.edgeArm d = some (s.stopArm d)) ∨
    (11 ≤ s.frame.bitpos.toNat ∧ s.edgeArm d = none) := by
  unfold State.edgeArm
  dsimp only
  split
  · exact .inl ⟨‹_›, rfl⟩
  · split
    · exact .inr (.inl ⟨by omega, ‹_›, rfl⟩)
    · split
      · exact .inr (.inr (.inl ⟨‹_›, rfl⟩))
      · split
        · exact .inr (.inr (.inr (.inl ⟨‹_›, rfl⟩)))
        · exact .inr (.inr (.inr (.inr ⟨by omega, rfl⟩)))

/-- `NextByte()` with the ring's two cases (R172). -/
theorem State.nextByte_cases (s : State) :
    (s.tx.isEmpty s.cfg.txCapLog2 = true ∧
      s.nextByte = { s with txLine := true, txState := 0 }) ∨
    (s.tx.isEmpty s.cfg.txCapLog2 = false ∧
      s.nextByte = { s with
        tx := s.tx.advance s.cfg.txCapLog2
        txShift := s.tx.oldest s.cfg.txCapLog2 .tx
        txLine := false
        txState := 1 }) := by
  rcases s.popByte_cases .tx with ⟨h, e⟩ | ⟨h, e⟩
  · exact .inl ⟨h, by simp only [State.nextByte, e]⟩
  · exact .inr ⟨h, by simp only [State.nextByte, e]; rfl⟩

/-- Everything the transmit state machine can do at a tick (R171). -/
theorem State.txArm_cases (s : State) :
    ((s.txState.toNat = 0 ∨ (s.txState.toNat = 9 ∧ s.cfg.stopBits = .one) ∨ s.txState.toNat = 10) ∧
      s.txArm = some s.nextByte) ∨
    (1 ≤ s.txState.toNat ∧ s.txState.toNat ≤ 7 ∧ s.txArm = some (s.dataOut (s.txState + 1))) ∨
    (s.txState.toNat = 8 ∧ s.txArm = some { s with txLine := true, txState := 9 }) ∨
    (s.txState.toNat = 9 ∧ s.cfg.stopBits = .two ∧
      s.txArm = some { s with txLine := true, txState := 10 }) ∨
    (11 ≤ s.txState.toNat ∧ s.txArm = none) := by
  unfold State.txArm
  dsimp only
  split
  · exact .inl ⟨.inl ‹_›, rfl⟩
  · split
    · exact .inr (.inl ⟨by omega, ‹_›, rfl⟩)
    · split
      · exact .inr (.inr (.inl ⟨‹_›, rfl⟩))
      · split
        · cases h : s.cfg.stopBits with
          | one => exact .inl ⟨.inr (.inl ⟨‹_›, rfl⟩), rfl⟩
          | two => exact .inr (.inr (.inr (.inl ⟨‹_›, rfl, rfl⟩)))
        · split
          · exact .inl ⟨.inr (.inr ‹_›), rfl⟩
          · exact .inr (.inr (.inr (.inr ⟨by omega, rfl⟩)))

/-- A tick: nothing while disarmed, else the transition after the tick counter (R171, R180). -/
theorem State.txTick_cases (s : State) :
    (s.txArmed = false ∧ s.txTick = some s) ∨
    (s.txArmed = true ∧ s.txTick = s.countTick.txArm) := by
  unfold State.txTick
  cases h : s.txArmed with
  | false => exact .inl ⟨rfl, by simp⟩
  | true => exact .inr ⟨rfl, by simp⟩

/-- Everything one poll of an `RX_READ` can do (R142). -/
theorem State.readPoll_cases (s : State) (n : Half) (left : Nat) :
    (s.rx.isEmpty s.cfg.rxCapLog2 = false ∧ s.readPoll n left = { s with
      rx := s.rx.advance s.cfg.rxCapLog2
      poll := .idle
      returned := some (.byte (s.rx.oldest s.cfg.rxCapLog2 .rx)) }) ∨
    (s.rx.isEmpty s.cfg.rxCapLog2 = true ∧ left = 0 ∧ s.readPoll n left = { s with
      poll := .idle, events := s.events ++ [.timeout n], returned := some .timeout }) ∨
    (s.rx.isEmpty s.cfg.rxCapLog2 = true ∧ left ≠ 0 ∧ s.readPoll n left = { s with
      poll := .reading n (left - 1), returned := none }) := by
  rcases s.popByte_cases .rx with ⟨h, e⟩ | ⟨h, e⟩
  · cases left with
    | zero => exact .inr (.inl ⟨h, rfl, by simp only [State.readPoll, e]; rfl⟩)
    | succ k => exact .inr (.inr ⟨h, by omega, by simp only [State.readPoll, e]; rfl⟩)
  · exact .inl ⟨h, by simp only [State.readPoll, e]; rfl⟩

/-- Everything a push step of `ENC_SEND` can do (R191). -/
theorem State.sendPush_cases (s : State) (ts : Word) (b : Byte) (rest : List Byte) (k : Nat) :
    (s.tx.isFull s.cfg.txCapLog2 = false ∧ s.sendPush ts b rest k = { s with
      tx := s.tx.store s.cfg.txCapLog2 b
      poll := .sending ts rest (k + 1)
      returned := none }) ∨
    (s.tx.isFull s.cfg.txCapLog2 = true ∧ s.sendPush ts b rest k = { s with
      tx := s.tx.drop
      poll := .sending ts rest k
      events := s.events ++ [.overflow .tx b]
      returned := none }) := by
  rcases s.pushByte_cases .tx b with ⟨h, e⟩ | ⟨h, e⟩
  · exact .inr ⟨h, by simp only [State.sendPush, e]; rfl⟩
  · exact .inl ⟨h, by simp only [State.sendPush, e]; rfl⟩

/-- Everything a step can do (R7, R229): a step of the sequence `A_POLL` is in, an issued word that
does not decode, one the agent check refuses, one that runs, or a turn with nothing to issue. -/
theorem step_cases (s : State) :
    (s.midSequence s.feed.nextIssuer = true ∧
      step s = .next (s.turn s.feed.nextIssuer).continuePoll) ∨
    (∃ w, s.wordFor s.feed.nextIssuer = some w ∧ decodeWord w = none ∧
      step s = .refused .reservedEncoding) ∨
    (∃ w i r, s.wordFor s.feed.nextIssuer = some w ∧ decodeWord w = some i ∧
      issueCheck s.cfg.timerLevel s.feed.nextIssuer i = some r ∧ step s = .refused r) ∨
    (∃ w i, s.wordFor s.feed.nextIssuer = some w ∧ decodeWord w = some i ∧
      issueCheck s.cfg.timerLevel s.feed.nextIssuer i = none ∧
      step s = exec i (s.issue s.feed.nextIssuer)) ∨
    (s.midSequence s.feed.nextIssuer = false ∧ s.wordFor s.feed.nextIssuer = none ∧
      step s = .next (s.turn s.feed.nextIssuer)) := by
  unfold step takeTurn State.wordFor
  generalize s.feed.nextIssuer = a
  cases hm : s.midSequence a with
  | true => exact .inl ⟨rfl, by simp⟩
  | false =>
    cases hw : s.feed.nextWord a with
    | none => exact .inr (.inr (.inr (.inr ⟨rfl, by simp, by simp⟩)))
    | some w =>
      cases hd : decodeWord w with
      | none => exact .inr (.inl ⟨w, by simp, hd, by simp [issueWord, hd]⟩)
      | some i =>
        cases hc : issueCheck s.cfg.timerLevel a i with
        | none => exact .inr (.inr (.inr (.inl ⟨w, i, by simp, hd, hc, by simp [issueWord, hd, hc]⟩)))
        | some r =>
          exact .inr (.inr (.inl ⟨w, i, r, by simp, hd, hc, by simp [issueWord, hd, hc]⟩))

end Sys2Proof.Machine
end

