-- ==== Sys2Proof/Laws/PerInstr.lean ====
section
/-! SUPPORT. Statements about every operation, one lemma for each constructor: the opcode field of an
operation's word is the one R97 gives it. -/

namespace Sys2Proof.Laws

open Sys2Proof

/-- The `op` column of R97. -/
def opOf (i : Instr) : BitVec 5 :=
  match i with
  | .rxEdge _ => 0x01
  | .rxStart => 0x02
  | .rxStop => 0x03
  | .rxPoll => 0x04
  | .rxRead _ => 0x05
  | .txInit _ => 0x08
  | .txTeardown => 0x09
  | .txEnqueue _ => 0x0A
  | .btClk => 0x0B
  | .txTick => 0x0C
  | .encReport _ _ _ _ _ _ => 0x10
  | .encSend => 0x11
  | .encReset => 0x12
  | .rbReset _ => 0x18
  | .rbPush _ _ => 0x19
  | .rbPop _ => 0x1A
  | .rbCount _ => 0x1B
  | .reset => 0x1F

/-- `op = w[31:27]` of the operation's word is its row's (R94, R97). -/
def OpcodeField.Statement (i : Instr) : Prop := (encode i).extractLsb' 27 5 = opOf i

/-- A word's top five bits under the union with a value below 2^16. -/
theorem top_or_half (p : Word) (n : Half) :
    (p ||| n.setWidth 32).extractLsb' 27 5 = p.extractLsb' 27 5 := by
  ext i hi
  have h : n.getLsbD (27 + i) = false := BitVec.getLsbD_of_ge n _ (by omega)
  simp [h]

/-- A word's top five bits under the union with a byte. -/
theorem top_or_byte (p : Word) (b : Byte) :
    (p ||| b.setWidth 32).extractLsb' 27 5 = p.extractLsb' 27 5 := by
  ext i hi
  have h : b.getLsbD (27 + i) = false := BitVec.getLsbD_of_ge b _ (by omega)
  simp [h]

theorem OpcodeField.rxEdge (d : Bool) : Statement (.rxEdge d) := by cases d <;> rfl
theorem OpcodeField.rxStart : Statement .rxStart := rfl
theorem OpcodeField.rxStop : Statement .rxStop := rfl
theorem OpcodeField.rxPoll : Statement .rxPoll := rfl
theorem OpcodeField.rxRead (n : Half) : Statement (.rxRead n) := top_or_half 0x28000000 n
theorem OpcodeField.txInit (n : Half) : Statement (.txInit n) := top_or_half 0x40000000 n
theorem OpcodeField.txTeardown : Statement .txTeardown := rfl
theorem OpcodeField.txEnqueue (b : Byte) : Statement (.txEnqueue b) := top_or_byte 0x50000000 b
theorem OpcodeField.btClk : Statement .btClk := rfl
theorem OpcodeField.txTick : Statement .txTick := rfl

theorem OpcodeField.encReport (l r m : Bool) (dx dy wheel : Byte) :
    Statement (.encReport l r m dx dy wheel) := by
  unfold Statement
  ext i hi
  have h : i = 0 ∨ i = 1 ∨ i = 2 ∨ i = 3 ∨ i = 4 := by omega
  cases l <;> cases r <;> cases m <;> rcases h with rfl | rfl | rfl | rfl | rfl <;>
    simp [encode, bitAt, opOf]

theorem OpcodeField.encSend : Statement .encSend := rfl
theorem OpcodeField.encReset : Statement .encReset := rfl
theorem OpcodeField.rbReset (q : RingId) : Statement (.rbReset q) := by cases q <;> rfl

theorem OpcodeField.rbPush (q : RingId) (b : Byte) : Statement (.rbPush q b) := by
  cases q
  · exact top_or_byte 0xC8000000 b
  · exact top_or_byte 0xC8000100 b

theorem OpcodeField.rbPop (q : RingId) : Statement (.rbPop q) := by cases q <;> rfl
theorem OpcodeField.rbCount (q : RingId) : Statement (.rbCount q) := by cases q <;> rfl
theorem OpcodeField.reset : Statement .reset := rfl

end Sys2Proof.Laws
end

