-- ==== Sys2Proof/Tests/Slice0.lean ====
section
/-! SUPPORT. Tests whose expected values come from spec/95_test_vectors.md (the vector is named with
each) or from the rule named, and one witness per statement that has hypotheses. -/

namespace Sys2Proof.Tests

open Sys2Proof Sys2Proof.Machine

/-! ### Helpers -/

/-- The next state of one operation, where there is one. -/
def after (i : Instr) (s : State) : Option State :=
  match exec i s with
  | .next t => some t
  | .fault _ => none
  | .refused _ => none

/-- The operation answers a next state of which `p` holds. -/
def gives (i : Instr) (s : State) (p : State → Bool) : Bool :=
  match after i s with
  | some t => p t
  | none => false

/-- One step answers a next state. -/
def runs (s : State) : Bool :=
  match step s with
  | .next _ => true
  | .fault _ => false
  | .refused _ => false

/-- The refusal of one step. -/
def refusalOf (s : State) : Option Refusal :=
  match step s with
  | .next _ => none
  | .fault _ => none
  | .refused r => some r

/-- The fault of one operation. -/
def faultOf (i : Instr) (s : State) : Option Fault :=
  match exec i s with
  | .next _ => none
  | .fault f => some f
  | .refused _ => none

/-- `CAP = 4` for both rings, as the vectors of §2.1 have it. -/
def cap4 : Config := { Config.vectors with rxCapLog2 := 2, txCapLog2 := 2 }

/-- Both rings at the given indices, counter and storage, `CAP = 4`. -/
def rings (h t : Nat) (ovf : Half) (buf : Memory) : State :=
  { State.resetWith cap4 with rx := ⟨h, t, buf, ovf⟩, tx := ⟨h, t, buf, ovf⟩ }

/-- Four written slots. -/
def fourBytes : Memory := [(0, 0x4D), (1, 0x33), (2, 0x60), (3, 0xAA)]

/-- An armed receiver in frame state `f`. -/
def rxAt (f : BitFrame) : State := { State.reset with rxArmed := true, frame := f }

/-- An armed transmitter in state `p` with `tx_shift = v`, with `c` stop bits. -/
def txAt (c : StopBits) (p : BitVec 4) (v : Byte) : State :=
  { State.resetWith { Config.vectors with stopBits := c } with
    txArmed := true, btCompare := 207, txState := p, txShift := v, txLine := p != 1 }

/-- An aggregate under mode `m` at tick count `tc`. -/
def encAt (m : Mode) (tc : Word) (dx dy wheel : Half) : State :=
  { State.resetWith { Config.vectors with mode := m } with
    tickCount := tc, accDx := dx, accDy := dy, accWheel := wheel }

/-- Source `a` is about to issue `w` at timing level `lvl`. -/
def issuing (lvl : TimerLevel) (a : Issuer) (w : Word) : State :=
  let s := State.resetWith { Config.vectors with timerLevel := lvl }
  { s with feed := { s.feed.setProgram a (.finite [w]) with schedule := [a] } }

/-! ### Well-formedness: R8's ranges -/

theorem test_wf_accepts_the_defaults : Config.vectors.wf := by decide
theorem test_wf_accepts_the_largest :
    { Config.vectors with rxCapLog2 := 8, txCapLog2 := 8 }.wf := by decide
theorem test_wf_refuses_rx_cap_zero : ¬ { Config.vectors with rxCapLog2 := 0 }.wf := by decide
theorem test_wf_refuses_rx_cap_nine : ¬ { Config.vectors with rxCapLog2 := 9 }.wf := by decide
theorem test_wf_refuses_tx_cap_one : ¬ { Config.vectors with txCapLog2 := 1 }.wf := by decide
theorem test_wf_refuses_tx_cap_nine : ¬ { Config.vectors with txCapLog2 := 9 }.wf := by decide

/-! ### Decoding: words written from R95 and R97, `op` in bits 31 to 27 -/

theorem test_decode_rx_edge :
    decodeWord 0b00001000000000000000000000000001 = some (.rxEdge true) := by decide
theorem test_decode_rx_start :
    decodeWord 0b00010000000000000000000000000000 = some .rxStart := by decide
theorem test_decode_rx_stop :
    decodeWord 0b00011000000000000000000000000000 = some .rxStop := by decide
theorem test_decode_rx_poll :
    decodeWord 0b00100000000000000000000000000000 = some .rxPoll := by decide
theorem test_decode_rx_read :
    decodeWord 0b00101000000000001000000000000010 = some (.rxRead 0x8002) := by decide
theorem test_decode_tx_init :
    decodeWord 0b01000000000000000000000011001111 = some (.txInit 207) := by decide
theorem test_decode_tx_teardown :
    decodeWord 0b01001000000000000000000000000000 = some .txTeardown := by decide
theorem test_decode_tx_enqueue :
    decodeWord 0b01010000000000000000000001001101 = some (.txEnqueue 0x4D) := by decide
theorem test_decode_bt_clk :
    decodeWord 0b01011000000000000000000000000000 = some .btClk := by decide
theorem test_decode_tx_tick :
    decodeWord 0b01100000000000000000000000000000 = some .txTick := by decide
/-- §2.6: `0x850AFB00` is `ENC_REPORT L=1, R=0, M=1, dx=10, dy=-5, wheel=0`. -/
theorem test_decode_enc_report :
    decodeWord 0b10000101000010101111101100000000 =
      some (.encReport true false true 10 (-5) 0) := by decide
/-- R95: `R` alone is bit 25. -/
theorem test_decode_enc_report_right :
    decodeWord 0b10000010000000010000001000000011 =
      some (.encReport false true false 1 2 3) := by decide
theorem test_decode_enc_send :
    decodeWord 0b10001000000000000000000000000000 = some .encSend := by decide
theorem test_decode_enc_reset :
    decodeWord 0b10010000000000000000000000000000 = some .encReset := by decide
theorem test_decode_rb_reset :
    decodeWord 0b11000000000000000000000100000000 = some (.rbReset .tx) := by decide
theorem test_decode_rb_push :
    decodeWord 0b11001000000000000000000101010101 = some (.rbPush .tx 0x55) := by decide
theorem test_decode_rb_pop :
    decodeWord 0b11010000000000000000000000000000 = some (.rbPop .rx) := by decide
theorem test_decode_rb_count :
    decodeWord 0b11011000000000000000000100000000 = some (.rbCount .tx) := by decide
theorem test_decode_reset :
    decodeWord 0b11111000000000000000000000000000 = some .reset := by decide
/-- §2.6: the refused words. -/
theorem test_decode_refuses_reserved_words :
    ([0x08000002, 0x28010000, 0x50000100, 0x00000000, 0x30000000, 0xC0000001] : List Word).all
      (fun w => (decodeWord w).isNone) = true := by decide
/-- The host's entry: a bit above bit 31 is no operation (log 20). -/
theorem test_decode_table_word :
    decodeTableWord 32 0x400000CF = some (.txInit 207)
      ∧ decodeTableWord 40 0x100000000 = none := by decide

/-! ### The ring primitives: §2.1, `CAP = 4` -/

/-- V-RB1. -/
theorem test_rb_reset : gives (.rbReset .tx) (rings 5 3 7 fourBytes)
    (fun t => t.tx.head == 0 && t.tx.tail == 0 && t.tx.ovf == 7 && t.tx.buf == fourBytes
      && t.rx.head == 5) = true := by decide
/-- V-RB3: the push fills the ring and the head wraps to 0. -/
theorem test_rb_push_wraps : gives (.rbPush .rx 0x11) (rings 7 4 0 fourBytes)
    (fun t => t.rx.buf.read? 3 == some 0x11 && t.rx.head == 0 && t.rx.count 2 == 4
      && t.returned == some .ok) = true := by decide
/-- V-RB5: a full ring drops, and the counter stays at 0xFFFF. -/
theorem test_rb_push_full : gives (.rbPush .tx 0x55) (rings 7 3 0xFFFF fourBytes)
    (fun t => t.returned == some .dropped && t.tx.ovf == 0xFFFF && t.tx.head == 7
      && t.tx.buf == fourBytes && t.events == [.overflow .tx 0x55]) = true := by decide
/-- V-RB6. -/
theorem test_rb_pop_empty : after (.rbPop .rx) (rings 6 6 0 fourBytes) =
    some { rings 6 6 0 fourBytes with returned := some .empty } := by decide
/-- V-RB7. -/
theorem test_rb_pop_wraps : gives (.rbPop .rx) (rings 1 7 0 fourBytes)
    (fun t => t.returned == some (.byte 0xAA) && t.rx.tail == 0 && t.rx.count 2 == 1) = true := by
  decide
/-- V-RB8. -/
theorem test_rb_count_full : gives (.rbCount .tx) (rings 3 7 0 fourBytes)
    (fun t => t.returned == some (.count 4)) = true := by decide
/-- V-RB9. -/
theorem test_rb_count_empty : gives (.rbCount .rx) (rings 2 2 0 fourBytes)
    (fun t => t.returned == some (.count 0)) = true := by decide

/-! ### The receiver: §2.3 -/

/-- V-RX1, edges 5 and 11: in Bit[3] with `rx_shift = 0x40`, a 1 gives 0xA0 and parity 0; in Stop,
0xFA is pushed into slot 0. -/
theorem test_rx_edge_takes_a_frame :
    gives (.rxEdge true) (rxAt ⟨4, 0x40, true, false⟩)
      (fun t => t.frame == ⟨5, 0xA0, false, false⟩ && t.returned == some .ok) = true
    ∧ gives (.rxEdge true) (rxAt ⟨10, 0xFA, false, true⟩)
      (fun t => t.frame == .initial && t.rx.buf == [(0, 0xFA)] && t.rx.head == 1
        && t.events == []) = true := by decide
/-- V-RX9: wrong stop and wrong parity give `StopError` only. V-RX23: the unreachable state. -/
theorem test_rx_edge_rejects :
    gives (.rxEdge false) (rxAt ⟨10, 0xFA, false, false⟩)
      (fun t => t.events == [.stopError] && t.rx.head == 0 && t.frame == .initial) = true
    ∧ faultOf (.rxEdge false) (rxAt ⟨11, 0, false, false⟩) =
      some (.unreachableState .rxBitpos) := by decide
/-- V-RX14. -/
theorem test_rx_stop : gives .rxStop { rxAt ⟨4, 0x40, true, false⟩ with rx := ⟨2, 0, fourBytes, 0⟩ }
    (fun t => !t.rxArmed && t.frame == .initial && t.rx == ⟨2, 0, fourBytes, 0⟩ && t.events == [])
      = true := by decide
/-- V-RX15. -/
theorem test_rx_start_armed : faultOf .rxStart (rxAt .initial) = some (.reinitWhileArmed .rx) := by
  decide
/-- V-RX16. -/
theorem test_rx_start_empties : gives .rxStart (rings 1 0 3 fourBytes)
    (fun t => t.rxArmed && t.rx == ⟨0, 0, fourBytes, 3⟩ && t.tx.head == 1) = true := by decide
/-- V-RX17. -/
theorem test_rx_poll : gives .rxPoll (rings 1 0 0 fourBytes)
    (fun t => t.returned == some (.byte 0x4D) && t.rx.tail == 1 && t.tx.tail == 0) = true := by decide
/-- V-RX18: `RX_READ 0` on an empty ring. -/
theorem test_rx_read_zero_times_out : gives (.rxRead 0) State.reset
    (fun t => t.returned == some .timeout && t.events == [.timeout 0] && t.poll == .idle) = true := by
  decide
/-- V-RX18: `RX_READ 2` on an empty ring takes three polls. -/
theorem test_rx_read_two_polls_three_times : gives (.rxRead 2) State.reset
    (fun t => t.returned == none && t.continuePoll.returned == none
      && t.continuePoll.continuePoll.returned == some .timeout
      && t.continuePoll.continuePoll.events == [.timeout 2]) = true := by decide

/-! ### The transmitter and the bit timer: §2.4 -/

/-- V-TX12. -/
theorem test_tx_init_armed :
    faultOf (.txInit 207) (txAt .one 0 0) = some (.reinitWhileArmed .tx) := by decide
/-- V-TX16: `TX_INIT` empties the ring. -/
theorem test_tx_init : gives (.txInit 207) (rings 1 0 0 fourBytes)
    (fun t => t.txArmed && t.btCompare == 207 && t.tx.count 2 == 0 && t.txLine && t.rx.count 2 == 1)
      = true := by decide
/-- V-TX13. -/
theorem test_tx_teardown : gives .txTeardown
    { txAt .one 5 0x26 with txLine := false, tx := ⟨2, 0, fourBytes, 0⟩ }
    (fun t => !t.txArmed && t.txState == 0 && t.txLine && t.tx.count 4 == 0 && t.btCompare == 207)
      = true := by decide
/-- V-TX15, second push. -/
theorem test_tx_enqueue_full : gives (.txEnqueue 0x4D) (rings 4 0 0 fourBytes)
    (fun t => t.returned == some .dropped && t.tx.ovf == 1 && t.events == [.overflow .tx 0x4D])
      = true := by decide
/-- V-TX15, first push. -/
theorem test_tx_enqueue : gives (.txEnqueue 0x4D) (rings 3 0 0 [])
    (fun t => t.returned == some .ok && t.tx.count 2 == 4 && t.rx.count 2 == 3) = true := by decide
/-- V-TX18, clock 3: the timer matches, and the tick fires. -/
theorem test_bt_clk_fires : gives .btClk
    { txAt .one 0 0 with btCompare := 2, btCount := 2, tx := ⟨1, 0, fourBytes, 0⟩ }
    (fun t => t.btCount == 0 && t.tickCount == 1 && !t.txLine && t.txState == 1) = true := by decide
/-- V-TX20. -/
theorem test_bt_clk_disarmed :
    after .btClk State.reset = some { State.reset with returned := some .ok } := by decide
/-- V-TX7. -/
theorem test_tx_tick_data : gives .txTick (txAt .one 1 0x4D)
    (fun t => t.txState == 2 && t.txLine && t.txShift == 0x26) = true := by decide
/-- V-TX9 and V-TX11: after the one stop bit the next byte starts; the tick count wraps. -/
theorem test_tx_tick_back_to_back : gives .txTick
    { txAt .one 9 0 with tx := ⟨2, 1, fourBytes, 0⟩, tickCount := 0xFFFFFFFF }
    (fun t => t.txState == 1 && !t.txLine && t.txShift == 0x33 && t.tickCount == 0) = true := by decide

/-! ### The packet encoder: §2.5 -/

/-- V-EN1, V-EN2, V-EN3. -/
theorem test_encode_three_modes :
    encodePacket .wheelMouse 0b101 10 (-5) 0 = [0x60, 0x0A, 0x05, 0x10]
      ∧ encodePacket .twoButton 0b101 10 (-5) 0 = [0x60, 0x0A, 0x05]
      ∧ encodePacket .threeButton 0b101 10 (-5) 0 = [0x60, 0x0A, 0x05, 0x20] := by decide
/-- V-EN8, V-EN14, V-EN24. -/
theorem test_encode_negative :
    encodePacket .twoButton 0 (-300) (-128) 0 = [0x46, 0x01, 0x3F]
      ∧ encodePacket .twoButton 0b011 (-127) 127 0 = [0x7A, 0x01, 0x01]
      ∧ encodePacket .wheelMouse 0b111 (-1) (-1) (-1) = [0x73, 0x3F, 0x01, 0x1F] := by decide
/-- V-EN25. -/
theorem test_enc_report_saturates :
    gives (.encReport false false false 127 0 0) (encAt .wheelMouse 0 32700 0 0)
      (fun t => t.accDx == 32767) = true := by decide
/-- V-EN27. -/
theorem test_enc_report_ignores_the_wheel :
    gives (.encReport false false true 0 0 5) (encAt .twoButton 0 0 0 0)
      (fun t => t.accWheel == 0 && t.curButtons == 0b100) = true := by decide
/-- V-EN34: difference 26. -/
theorem test_enc_send_not_due : gives .encSend
    { encAt .twoButton 0x0A 1 0 0 with lastSendTick := 0xFFFFFFF0 }
    (fun t => t.returned == some .notDue && t.poll == .idle) = true := by decide
/-- V-EN31: `Sent(3)` with 40 01 00 in the TX ring. -/
theorem test_enc_send : gives .encSend (encAt .twoButton 27 1 0 0)
    (fun t =>
      let u := continueN 4 t
      u.returned == some (.sent 3) && u.tx.buf == [(0, 0x40), (1, 0x01), (2, 0x00)] && u.accDx == 0
        && u.lastSendTick == 27 && u.poll == .idle) = true := by decide
/-- V-EN41. -/
theorem test_enc_reset : gives .encReset
    { encAt .wheelMouse 1000 40 0 0 with curButtons := 0b001 }
    (fun t => t.accDx == 0 && t.curButtons == 0 && t.lastButtons == 0 && t.lastSendTick == 1000)
      = true := by decide

/-! ### Reset, the agent check and the step: §2.7 -/

/-- V-RS1: from a state with nothing at its reset value; ring storage is kept. -/
theorem test_reset : gives .reset
    { txAt .two 7 0x55 with
      rxArmed := true, frame := ⟨3, 1, true, true⟩, rx := ⟨3, 1, fourBytes, 9⟩, btCount := 3,
      txLine := false, tx := ⟨4, 2, fourBytes, 8⟩, tickCount := 6, accDx := 1, accDy := 2,
      accWheel := 3, curButtons := 1, lastButtons := 2, lastSendTick := 5, poll := .reading 3 1 }
    (fun t => t == { State.resetWith { Config.vectors with stopBits := .two } with
      rx := ⟨0, 0, fourBytes, 0⟩, tx := ⟨0, 0, fourBytes, 0⟩, returned := some .ok }) = true := by
  decide
/-- V-RS2: `RESET` after two of four pushes; the commit does not come. -/
theorem test_reset_cancels_a_send : gives .encSend (encAt .wheelMouse 36 5 0 0)
    (fun t => gives .reset (continueN 2 t) (fun u =>
      u.tx.count 4 == 0 && u.accDx == 0 && u.continuePoll.lastSendTick == 0
        && u.continuePoll.returned == some .ok)) = true := by decide
/-- V-RS3. -/
theorem test_step_wrong_agent :
    refusalOf (issuing .tick .poll 0x08000000) = some .wrongAgent := by decide
/-- V-RS4. -/
theorem test_step_decodes_first :
    refusalOf (issuing .tick .poll 0x08000002) = some .reservedEncoding := by decide
/-- V-RS5. -/
theorem test_step_internal_at_cycle_level :
    refusalOf (issuing .cycle .bt 0x60000000) = some .internalOperation := by decide
/-- Every row's word runs as the next step after reset (R97's words with every operand bit 0). -/
theorem test_step_runs_every_row :
    ([0x08000000, 0x10000000, 0x18000000, 0x20000000, 0x28000000, 0x40000000, 0x48000000, 0x50000000,
      0x58000000, 0x60000000, 0x80000000, 0x88000000, 0x90000000, 0xC0000000, 0xC8000000, 0xD0000000,
      0xD8000000, 0xF8000000] : List Nat).all
        (fun w => runs (State.reset.withFetchWord 32 w)) = true := by decide
/-- The placed word takes its effect in that one step. -/
theorem test_step_runs_the_placed_word :
    (match step (State.reset.withFetchWord 32 0x5000004D) with
      | .next t => t.tx.buf == [(0, 0x4D)] && t.feed.poll == .finite [] && t.feed.issuer == .poll
      | .fault _ => false
      | .refused _ => false) = true := by decide

/-! ### Memory -/

/-- The state after reset has its storage in canonical form. -/
theorem test_reset_storage_wf :
    Memory.wf State.reset.rx.buf = true ∧ Memory.wf State.reset.tx.buf = true := by decide

/-! ### Witnesses: for each statement with hypotheses, states and operands that meet them, every clause
at a boundary value -/

/-- A legal state, part by part, while nothing of `A_POLL` is part-way. -/
theorem inv_of_parts {s : State} (h : s.cfg.wf ∧ s.rx.Ok s.cfg.rxCapLog2 ∧ s.tx.Ok s.cfg.txCapLog2
    ∧ s.frame.Ok ∧ (s.rxArmed = false → s.frame = .initial) ∧ s.TxOk ∧ s.EncOk) (hp : s.poll = .idle) :
    s.Inv :=
  ⟨h.1, h.2.1, h.2.2.1, h.2.2.2.1, h.2.2.2.2.1, h.2.2.2.2.2.1, h.2.2.2.2.2.2, by rw [hp]; trivial⟩

/-- Both rings full at `CAP = 4`, the head wrapped past the tail. -/
def fullRings : State := rings 3 7 0xFFFF fourBytes

/-- A legal state with an armed receiver and one slot free in its ring. -/
def rxRoomForOne : State := { rings 6 3 0 fourBytes with rxArmed := true }

/-- A legal, armed, idle transmitter with a full ring of four bytes and two stop bits. -/
def txLoaded : State :=
  { rings 3 7 0 fourBytes with
    cfg := { cap4 with stopBits := .two }, txArmed := true, txState := 10 }

/-- A legal state in which a send is due at the very first tick it can be, with one slot free. -/
def sendDueNow : State :=
  { rings 6 3 0 fourBytes with tickCount := 36, accDx := 5, txArmed := true }

/-- A legal state between two bytes with an empty TX ring in which a send is due. -/
def sendIntoEmpty : State :=
  { rings 6 6 0 fourBytes with
    tickCount := 36, accDx := 5, txArmed := true, txState := 9, txLine := true }

theorem inv_fullRings : fullRings.Inv := inv_of_parts (by decide) rfl
theorem inv_rxRoomForOne : rxRoomForOne.Inv := inv_of_parts (by decide) rfl
theorem inv_txLoaded : txLoaded.Inv := inv_of_parts (by decide) rfl
theorem inv_sendDueNow : sendDueNow.Inv := inv_of_parts (by decide) rfl
theorem inv_sendIntoEmpty : sendIntoEmpty.Inv := inv_of_parts (by decide) rfl
theorem inv_reset : State.reset.Inv := inv_of_parts (by decide) rfl

theorem witness_EncodeOfDecode : decodeWord 0x87FFFFFF = some (.encReport true true true (-1) (-1) (-1)) := by
  decide

theorem witness_UnassignedAndReservedWords :
    (0x07FFFFFF : Word).extractLsb' 27 5 = 0x00 ∧ (0xF7FFFFFF : Word).extractLsb' 27 5 = 0x1E ∧
    (0x08000002 : Word).extractLsb' 27 5 = 0x01 ∧ (0x08000002 : Word).extractLsb' 1 26 ≠ 0 ∧
    (0x28010000 : Word).extractLsb' 27 5 = 0x05 ∧ (0x28010000 : Word).extractLsb' 16 11 ≠ 0 ∧
    (0x44000000 : Word).extractLsb' 27 5 = 0x08 ∧ (0x44000000 : Word).extractLsb' 16 11 ≠ 0 ∧
    (0x50000100 : Word).extractLsb' 27 5 = 0x0A ∧ (0x50000100 : Word).extractLsb' 8 19 ≠ 0 ∧
    (0x10000001 : Word).extractLsb' 27 5 = 0x02 ∧ (0x10000001 : Word).extractLsb' 0 27 ≠ 0 ∧
    (0xFC000000 : Word).extractLsb' 27 5 = 0x1F ∧ (0xFC000000 : Word).extractLsb' 0 27 ≠ 0 ∧
    (0xC0000200 : Word).extractLsb' 27 5 = 0x18 ∧ (0xC0000200 : Word).extractLsb' 9 18 ≠ 0 ∧
    (0xD8000080 : Word).extractLsb' 27 5 = 0x1B ∧ (0xD8000080 : Word).extractLsb' 0 8 ≠ 0 ∧
    (0xC8000200 : Word).extractLsb' 27 5 = 0x19 ∧ (0xC8000200 : Word).extractLsb' 9 18 ≠ 0 := by
  decide

theorem witness_ExactlyOneMapRowDecides :
    ((0x80000000, 0xF8000000) : Word × Word) ∈ opcodeMap ∧
      (0x87FFFFFF : Word) &&& 0xF8000000 = 0x80000000 := by decide

theorem witness_StepRunsTheDecodedOperation :
    (issuing .cycle .bt 0x58000000).feed.nextIssuer = .bt ∧
    (issuing .cycle .bt 0x58000000).wordFor .bt = some 0x58000000 ∧
    decodeWord 0x58000000 = some .btClk ∧ issueCheck .cycle .bt .btClk = none := by decide

theorem witness_StepRefusesReservedWords :
    (issuing .tick .rxe 0x08000002).wordFor (issuing .tick .rxe 0x08000002).feed.nextIssuer =
      some 0x08000002 ∧ ∀ r ∈ opcodeMap, (0x08000002 : Word) &&& r.2 ≠ r.1 :=
  ⟨by decide, by simp [opcodeMap]⟩

/-- Each clause: the named source has the next turn and the operation's word. -/
theorem witness_StepRefusesForeignOperations :
    ([(.bt, .rbReset .tx), (.rxe, .rbPush .rx 0xFF), (.bt, .rbPop .tx), (.env, .rbCount .rx),
      (.poll, .txTick), (.bt, .btClk), (.poll, .rxEdge true), (.bt, .rxStart), (.env, .rxStop),
      (.rxe, .rxPoll), (.rxe, .rxRead 0xFFFF), (.bt, .txInit 0), (.env, .txTeardown),
      (.bt, .txEnqueue 0xFF), (.rxe, .encReport true true true (-1) (-1) (-1)), (.internal, .encSend),
      (.env, .encReset), (.poll, .reset)] : List (Issuer × Instr)).all (fun p =>
        [TimerLevel.cycle, .tick].all (fun lvl =>
          (issuing lvl p.1 (encode p.2)).feed.nextIssuer == p.1
            && (issuing lvl p.1 (encode p.2)).wordFor p.1 == some (encode p.2))) = true := by decide

theorem witness_PollTurnContinuesItsSequence :
    { issuing .tick .poll 0x20000000 with poll := .reading 1 0 }.feed.nextIssuer = .poll ∧
    { issuing .tick .poll 0x20000000 with poll := .reading 1 0 }.poll ≠ .idle := by decide

theorem witness_IdleTurnKeepsTheBlock :
    { State.reset with feed := { Feed.empty with schedule := [.poll] } }.midSequence .poll = false ∧
    { State.reset with feed := { Feed.empty with schedule := [.poll] } }.wordFor .poll = none ∧
    { Feed.empty with schedule := [.poll] }.nextIssuer = .poll := by decide

theorem witness_PushStoresAtTheHeadSlot :
    ((rings 7 4 0 fourBytes).ring .rx).count ((rings 7 4 0 fourBytes).capLog2 .rx) ≠
        2 ^ (rings 7 4 0 fourBytes).capLog2 .rx ∧
    ((rings 0 0 0 []).ring .tx).count ((rings 0 0 0 []).capLog2 .tx) ≠
        2 ^ (rings 0 0 0 []).capLog2 .tx := by decide

theorem witness_PushOnAFullRingDropsTheByte :
    (fullRings.ring .rx).count (fullRings.capLog2 .rx) = 2 ^ fullRings.capLog2 .rx ∧
    (fullRings.ring .tx).ovf = 0xFFFF ∧
    ((rings 4 0 0 fourBytes).ring .tx).count ((rings 4 0 0 fourBytes).capLog2 .tx) =
        2 ^ (rings 4 0 0 fourBytes).capLog2 .tx := by decide

theorem witness_PopReturnsTheTailSlot :
    ((rings 6 6 0 []).ring .rx).count ((rings 6 6 0 []).capLog2 .rx) = 0 ∧
    ((rings 0 7 0 fourBytes).ring .tx).count ((rings 0 7 0 fourBytes).capLog2 .tx) ≠ 0 := by decide

/-- Full, empty and one below full. -/
theorem witness_RingIsABoundedQueue :
    fullRings.Inv ∧ (fullRings.rx.contents 2 .rx).length = 4 ∧
    State.reset.Inv ∧ State.reset.tx.contents 4 .tx = [] ∧
    sendDueNow.Inv ∧ (sendDueNow.tx.contents 2 .tx).length = 3 :=
  ⟨inv_fullRings, by decide, inv_reset, by decide, inv_sendDueNow, by decide⟩

theorem witness_UnwrittenStorageIsNeverReturned :
    txLoaded.Inv ∧ (txLoaded.ring .tx).count (txLoaded.capLog2 .tx) ≠ 0 :=
  ⟨inv_txLoaded, by decide⟩

theorem witness_DisarmedEdgeIsLost : State.reset.rxArmed = false := rfl

/-- `rx_bitpos` 0, 1, 8 and 9. -/
theorem witness_EdgeAdvancesTheFrame :
    (rxAt .initial).rxArmed = true ∧ (rxAt .initial).frame.bitpos.toNat = 0 ∧
    (rxAt ⟨1, 0, false, false⟩).rxArmed = true ∧ (rxAt ⟨1, 0, false, false⟩).frame.bitpos.toNat = 1 ∧
    (rxAt ⟨8, 0xF4, true, false⟩).frame.bitpos.toNat = 8 ∧
    (rxAt ⟨9, 0xFA, false, false⟩).frame.bitpos.toNat = 9 := by decide

/-- A good frame, and one with the wrong parity, before the stop edge. -/
theorem witness_StopEdgePushesOrDiscards :
    (rxAt ⟨10, 0xFA, false, true⟩).rxArmed = true ∧
    (rxAt ⟨10, 0xFA, false, true⟩).frame.bitpos.toNat = 10 ∧
    ((rxAt ⟨10, 0xFA, false, true⟩).frame.parity ^^ (rxAt ⟨10, 0xFA, false, true⟩).frame.pbit) = true ∧
    ((rxAt ⟨10, 0xFA, false, false⟩).frame.parity ^^ (rxAt ⟨10, 0xFA, false, false⟩).frame.pbit)
      = false := by decide

/-- Both registers at 11 and at 15, the timer at its match. -/
theorem witness_UnreachableRegisterValuesFault :
    (rxAt ⟨11, 0, false, false⟩).rxArmed = true ∧
    11 ≤ (rxAt ⟨11, 0, false, false⟩).frame.bitpos.toNat ∧
    11 ≤ (rxAt ⟨15, 0, false, false⟩).frame.bitpos.toNat ∧
    (txAt .one 11 0).txArmed = true ∧ 11 ≤ (txAt .one 11 0).txState.toNat ∧
    11 ≤ (txAt .two 15 0).txState.toNat ∧
    { txAt .one 11 0 with btCount := 207 }.btCount = { txAt .one 11 0 with btCount := 207 }.btCompare := by
  decide

theorem witness_WellFormedFrameDeliversItsByte :
    rxRoomForOne.Inv ∧ rxRoomForOne.rxArmed = true ∧ rxRoomForOne.frame = .initial ∧
    rxRoomForOne.rx.count rxRoomForOne.cfg.rxCapLog2 < 2 ^ rxRoomForOne.cfg.rxCapLog2 :=
  ⟨inv_rxRoomForOne, rfl, rfl, by decide⟩

/-- V-RX7's byte with the wrong parity level; the stop level alone decides the other clause. -/
theorem witness_CorruptedFrameLeavesNoTrace :
    rxRoomForOne.rxArmed = true ∧ rxRoomForOne.frame = .initial ∧ false = !parityBit 0xFA := by decide

theorem witness_RxStartArmsOrFaults : (rxAt .initial).rxArmed = true ∧ State.reset.rxArmed = false := by
  decide

theorem witness_RxPollTakesOneByte :
    (rings 6 6 0 []).rx.count (rings 6 6 0 []).cfg.rxCapLog2 = 0 ∧
    (rings 0 7 0 fourBytes).rx.count (rings 0 7 0 fourBytes).cfg.rxCapLog2 ≠ 0 := by decide

theorem witness_RxReadTakesItsFirstPoll :
    (rings 0 7 0 fourBytes).rx.count (rings 0 7 0 fourBytes).cfg.rxCapLog2 ≠ 0 ∧
    State.reset.rx.count State.reset.cfg.rxCapLog2 = 0 ∧ (1 : Half) ≠ 0 := by decide

theorem witness_RxReadOnAnEmptyRingTimesOut :
    (rings 7 7 0 fourBytes).rx.count (rings 7 7 0 fourBytes).cfg.rxCapLog2 = 0 := by decide

theorem witness_EveryReadPollEndsOrCountsDown :
    { rings 0 7 0 fourBytes with poll := .reading 2 1 }.poll = .reading 2 1 ∧
    { rings 0 7 0 fourBytes with poll := .reading 2 1 }.rx.count 2 ≠ 0 ∧
    { rings 7 7 0 fourBytes with poll := .reading 2 0 }.poll = .reading 2 0 ∧
    { rings 7 7 0 fourBytes with poll := .reading 2 1 }.rx.count 2 = 0 := by decide

theorem witness_TxInitArmsOrFaults : (txAt .one 0 0).txArmed = true ∧ State.reset.txArmed = false := by
  decide

theorem witness_TxEnqueueIsOnePush :
    (rings 7 4 0 fourBytes).tx.count (rings 7 4 0 fourBytes).cfg.txCapLog2 ≠ 2 ^ 2 ∧
    fullRings.tx.count fullRings.cfg.txCapLog2 = 2 ^ fullRings.cfg.txCapLog2 := by decide

/-- Disarmed; one below the match; at the match in Idle and in ExtraStop. -/
theorem witness_TimerClockCountsOrTicks :
    State.reset.txArmed = false ∧ (txAt .one 0 0).txArmed = true ∧
    { txAt .one 0 0 with btCount := 206 }.btCount ≠ { txAt .one 0 0 with btCount := 206 }.btCompare ∧
    { txAt .two 10 0 with btCount := 207 }.btCount = { txAt .two 10 0 with btCount := 207 }.btCompare ∧
    { txAt .two 10 0 with btCount := 207 }.txState.toNat ≤ 10 := by decide

/-- With `bt_compare = 1`, so that one clock only counts. -/
theorem witness_FirstTickComesAfterCompareClocks :
    { txAt .two 10 0 with btCompare := 1 }.txArmed = true ∧
    { txAt .two 10 0 with btCompare := 1 }.btCount = 0 ∧
    { txAt .two 10 0 with btCompare := 1 }.txState.toNat ≤ 10 ∧
    0 < 1 ∧ 1 ≤ { txAt .two 10 0 with btCompare := 1 }.btCompare.toNat := by decide

/-- `tx_state` 1, 7, 8 and, with two stop bits, 9. -/
theorem witness_TickShiftsTheByteOut :
    State.reset.txArmed = false ∧ (txAt .one 1 0x4D).txArmed = true ∧
    (txAt .one 1 0x4D).txState.toNat = 1 ∧ (txAt .one 7 0x4D).txState.toNat = 7 ∧
    (txAt .one 8 0x4D).txState.toNat = 8 ∧ (txAt .two 9 0x4D).txState.toNat = 9 ∧
    (txAt .two 9 0x4D).cfg.stopBits = .two := by decide

/-- `tx_state` 0, 9 with one stop bit, and 10, with an empty ring and with bytes queued. -/
theorem witness_TickStartsTheNextByteOrIdles :
    (txAt .one 0 0).txArmed = true ∧ (txAt .one 0 0).txState.toNat = 0 ∧
    (txAt .one 9 0).txState.toNat = 9 ∧ (txAt .one 9 0).cfg.stopBits = .one ∧
    (txAt .two 10 0).txState.toNat = 10 ∧ (txAt .one 0 0).tx.count 4 = 0 ∧
    txLoaded.txArmed = true ∧ txLoaded.txState.toNat = 10 ∧
    txLoaded.tx.count txLoaded.cfg.txCapLog2 ≠ 0 := by decide

theorem witness_QueuedBytesLeaveAsSerialFrames :
    txLoaded.Inv ∧ txLoaded.txArmed = true ∧ txLoaded.txState = 10 ∧
    txLoaded.tx.contents txLoaded.cfg.txCapLog2 .tx = [0xAA, 0x4D, 0x33, 0x60] :=
  ⟨inv_txLoaded, rfl, rfl, by decide⟩

theorem witness_ReportAccumulatesSaturating :
    (encAt .wheelMouse 0 32767 0 0).cfg.mode = .wheelMouse ∧
    (encAt .twoButton 0 (-32767) 0 0).cfg.mode ≠ .wheelMouse := by decide

/-- Differences 35 and 36 of a period of 36 ticks. -/
theorem witness_SendIsThrottledAndSuppressed :
    ((encAt .wheelMouse 35 1 0 0).tickCount - (encAt .wheelMouse 35 1 0 0).lastSendTick).toNat <
      pktLen .wheelMouse * (8 + stopBitCount (encAt .wheelMouse 35 1 0 0).cfg) ∧
    pktLen .wheelMouse * (8 + stopBitCount (encAt .wheelMouse 36 0 0 0).cfg) ≤
      ((encAt .wheelMouse 36 0 0 0).tickCount - (encAt .wheelMouse 36 0 0 0).lastSendTick).toNat ∧
    (encAt .wheelMouse 36 0 0 0).accDx = 0 ∧ (encAt .wheelMouse 36 0 0 0).accDy = 0 ∧
    (encAt .wheelMouse 36 0 0 0).accWheel = 0 ∧
    (encAt .wheelMouse 36 0 0 0).curButtons = (encAt .wheelMouse 36 0 0 0).lastButtons := by decide

/-- Difference 27 of a period of 27 ticks. -/
theorem witness_DueSendFixesItsPacket :
    pktLen .twoButton * (8 + stopBitCount (encAt .twoButton 27 1 0 0).cfg) ≤
      ((encAt .twoButton 27 1 0 0).tickCount - (encAt .twoButton 27 1 0 0).lastSendTick).toNat ∧
    (encAt .twoButton 27 1 0 0).accDx ≠ 0 := by decide

theorem witness_SendStoresWhatFitsAndCommits :
    sendDueNow.Inv ∧
    pktLen sendDueNow.cfg.mode * (8 + stopBitCount sendDueNow.cfg) ≤
      (sendDueNow.tickCount - sendDueNow.lastSendTick).toNat ∧
    sendDueNow.worthSending = true :=
  ⟨inv_sendDueNow, by decide, by decide⟩

theorem witness_PacketLeavesWithinOnePeriod :
    sendIntoEmpty.Inv ∧ sendIntoEmpty.txArmed = true ∧
    (sendIntoEmpty.txState = 9 ∧ sendIntoEmpty.cfg.stopBits = .one) ∧
    sendIntoEmpty.tx.contents sendIntoEmpty.cfg.txCapLog2 .tx = [] ∧
    pktLen sendIntoEmpty.cfg.mode * (8 + stopBitCount sendIntoEmpty.cfg) ≤
      (sendIntoEmpty.tickCount - sendIntoEmpty.lastSendTick).toNat ∧
    sendIntoEmpty.worthSending = true :=
  ⟨inv_sendIntoEmpty, rfl, ⟨rfl, rfl⟩, by decide, by decide, by decide⟩

theorem witness_CommitClearsTheAggregate :
    { encAt .wheelMouse 50 5 6 7 with poll := .sending 36 [] 4 }.poll = .sending 36 [] 4 := rfl

theorem witness_MotionBeyondTheClampIsLost :
    127 ≤ (127 : Half).toInt ∧ (-127 : Half).toInt ≤ -127 ∧ 127 ≤ (300 : Half).toInt := by decide

theorem witness_LegalStateAtReset : Config.vectors.wf ∧ cap4.wf := by decide

/-- A turn of the timer agent with bytes queued. -/
theorem witness_EveryStepKeepsTheStateLegal :
    { txLoaded with feed := { Feed.empty with bt := .finite [0x60000000], schedule := [.bt] } }.Inv ∧
    runs { txLoaded with feed := { Feed.empty with bt := .finite [0x60000000], schedule := [.bt] } } = true :=
  ⟨inv_of_parts (by decide) rfl, by decide⟩

/-- `RX_START` of the armed receiver and `TX_INIT` of the armed transmitter. -/
theorem witness_OnlyReinitialisationFaults :
    { rxRoomForOne with feed := { Feed.empty with poll := .finite [0x10000000], schedule := [.poll] } }.Inv ∧
    step { rxRoomForOne with feed := { Feed.empty with poll := .finite [0x10000000], schedule := [.poll] } } =
      .fault (.reinitWhileArmed .rx) ∧
    { txLoaded with feed := { Feed.empty with poll := .finite [0x400000CF], schedule := [.poll] } }.Inv ∧
    step { txLoaded with feed := { Feed.empty with poll := .finite [0x400000CF], schedule := [.poll] } } =
      .fault (.reinitWhileArmed .tx) :=
  ⟨inv_of_parts (by decide) rfl, rfl, inv_of_parts (by decide) rfl, rfl⟩

/-- Clause by clause: an operation that changes the register. -/
theorem witness_EachRegisterHasItsWriters :
    gives .rxStart State.reset (fun t => t.rxArmed != State.reset.rxArmed) = true ∧
    gives (.rxEdge false) (rxAt .initial) (fun t => t.frame != (rxAt .initial).frame) = true ∧
    gives (.rbPush .rx 1) (rings 7 4 0 []) (fun t => t.rx.head != 7 && t.rx.buf != []) = true ∧
    gives .rxPoll fullRings (fun t => t.rx.tail != 7) = true ∧
    gives (.rbPush .rx 1) (rings 3 7 0 fourBytes) (fun t => t.rx.ovf != 0) = true ∧
    gives (.txInit 207) State.reset (fun t => t.txArmed != State.reset.txArmed
      && t.btCompare != State.reset.btCompare) = true ∧
    gives .btClk (txAt .one 0 0) (fun t => t.btCount != 0) = true ∧
    gives .txTick (txAt .one 1 0x4C) (fun t => t.txState != 1 && t.txShift != 0x4C
      && t.tickCount != 0) = true ∧
    gives .txTick (txAt .one 2 0) (fun t => t.txLine != (txAt .one 2 0).txLine) = true ∧
    gives (.txEnqueue 1) (rings 7 4 0 []) (fun t => t.tx.head != 7 && t.tx.buf != []) = true ∧
    gives .txTick txLoaded (fun t => t.tx.tail != 7) = true ∧
    gives (.txEnqueue 1) (rings 3 7 0 fourBytes) (fun t => t.tx.ovf != 0) = true ∧
    gives (.encReport true false false 1 1 1) State.reset (fun t => t.accDx != 0 && t.accDy != 0
      && t.accWheel != 0 && t.curButtons != 0) = true ∧
    gives .encReset { State.reset with tickCount := 9, lastButtons := 1 } (fun t =>
      t.lastButtons != 1 && t.lastSendTick != 0) = true ∧
    gives (.rxRead 1) State.reset (fun t => t.poll != .idle) = true := by decide

/-- A poll; a push step with one slot free, one on a full ring; the commit step. -/
theorem witness_SequenceStepsHaveTheirWriters :
    { State.reset with poll := .reading 1 0 }.poll = .reading 1 0 ∧
    { rings 7 4 0 fourBytes with poll := .sending 0 [0x40] 3 }.poll = .sending 0 [0x40] 3 ∧
    (rings 7 4 0 fourBytes).tx.count (rings 7 4 0 fourBytes).cfg.txCapLog2 ≠
      2 ^ (rings 7 4 0 fourBytes).cfg.txCapLog2 ∧
    { fullRings with poll := .sending 0 [0x40, 0x01] 2 }.poll = .sending 0 [0x40, 0x01] 2 ∧
    fullRings.tx.count fullRings.cfg.txCapLog2 = 2 ^ fullRings.cfg.txCapLog2 ∧
    { State.reset with poll := .sending 0 [] 4 }.poll = .sending 0 [] 4 := by decide

theorem witness_DisarmedUnitsAreQuiescent :
    State.reset.rxArmed = false ∧ State.reset.txArmed = false := by decide

theorem witness_ConfigurationIsFixedForTheRun : runs (issuing .tick .bt 0x60000000) = true := by decide

theorem witness_FaultedRunIsFinal :
    (Run.start { rxAt .initial with
      feed := { Feed.empty with poll := .finite [0x10000000], schedule := [.poll] } }).fault = none ∧
    step { rxAt .initial with feed := { Feed.empty with poll := .finite [0x10000000], schedule := [.poll] } } =
      .fault (.reinitWhileArmed .rx) := ⟨rfl, rfl⟩

theorem witness_RefusalMarksTheRun :
    (Run.start (issuing .tick .poll 0x08000002)).fault = none ∧
    step (issuing .tick .poll 0x08000002) = .refused .reservedEncoding := ⟨rfl, rfl⟩

/-- The last listed word, the place after it, and both ways to go on. -/
theorem witness_ProgramsAreIssuedInOrder :
    0 < ({ Feed.empty with bt := ⟨[0x60000000], .ends⟩ }.program .bt).words.length ∧
    ({ Feed.empty with bt := ⟨[0x60000000], .ends⟩ }.program .bt).words.length ≤ 1 ∧
    ({ Feed.empty with bt := ⟨[0x60000000], .ends⟩ }.program .bt).rest = .ends ∧
    ({ Feed.empty with bt := ⟨[0x60000000], .endless 0⟩ }.program .bt).words.length ≤ 1 ∧
    ({ Feed.empty with bt := ⟨[0x60000000], .endless 0⟩ }.program .bt).rest = .endless 0 ∧
    Issuer.poll ≠ .bt := by decide

end Sys2Proof.Tests
end

section
/-! SUPPORT. The step by the kind of turn it is (spec/00_scope.md R7, spec/60_exceptions.md R229): one
equation each for a part-way sequence, an idle turn and a word that runs. -/

namespace Sys2Proof.Machine

theorem State.wordFor_eq_some {s : State} {a : Issuer} {w : Word} :
    s.wordFor a = some w ↔ s.midSequence a = false ∧ s.feed.nextWord a = some w := by
  cases h : s.midSequence a <;> simp [State.wordFor, h]

theorem State.nextWord_eq_none {s : State} {a : Issuer} (hm : s.midSequence a = false)
    (hw : s.wordFor a = none) : s.feed.nextWord a = none := by
  simpa [State.wordFor, hm] using hw

/-- Only `A_POLL` has sequences, so its turn is inside one exactly when `poll` is not idle. -/
theorem State.midSequence_poll {s : State} : s.midSequence .poll = true ↔ s.poll ≠ .idle := by
  simp [State.midSequence]

@[simp] theorem Feed.issue_schedule (f : Feed) (a : Issuer) :
    (f.issue a).schedule = f.schedule.tail := by
  cases a <;> rfl

@[simp] theorem Feed.issue_turns (f : Feed) (a : Issuer) : (f.issue a).turns = f.turns + 1 := by
  cases a <;> rfl

/-- A word that decodes and passes the agent check runs its operation. -/
theorem issueWord_of_runs {s : State} {a : Issuer} {w : Word} {i : Instr}
    (hd : decodeWord w = some i) (hc : issueCheck s.cfg.timerLevel a i = none) :
    issueWord a w s = exec i (s.issue a) := by
  simp [issueWord, hd, hc]

/-- The turn of a source inside a sequence is the sequence's next step (R102, log 24). -/
theorem step_of_midSequence {s : State} {a : Issuer} (ha : s.feed.nextIssuer = a)
    (hm : s.midSequence a = true) : step s = .next (s.turn a).continuePoll := by
  simp [step, takeTurn, ha, hm]

/-- The turn of a source with nothing to issue is the turn alone (log 5). -/
theorem step_of_idle {s : State} {a : Issuer} (ha : s.feed.nextIssuer = a)
    (hm : s.midSequence a = false) (hw : s.wordFor a = none) : step s = .next (s.turn a) := by
  simp [step, takeTurn, ha, hm, State.nextWord_eq_none hm hw]

/-- The turn of a source with a word to issue is the issue of that word (R100). -/
theorem step_of_word {s : State} {a : Issuer} {w : Word} (ha : s.feed.nextIssuer = a)
    (hw : s.wordFor a = some w) : step s = issueWord a w s := by
  obtain ⟨hm, hn⟩ := State.wordFor_eq_some.mp hw
  simp [step, takeTurn, ha, hm, hn]

end Sys2Proof.Machine
end

section
/-! SUPPORT. No operation of the block writes the configuration (spec/00_scope.md R11, spec/10_state.md
R44), and no step of a part-way sequence writes the agents' sequences (R100). -/

namespace Sys2Proof.Machine

/-! ### Ring primitives and the receiver -/

@[simp] theorem State.resetRing_cfg (s : State) (q : RingId) : (s.resetRing q).cfg = s.cfg :=
  s.setRing_cfg q _

@[simp] theorem State.pushByte_cfg (s : State) (q : RingId) (b : Byte) :
    (s.pushByte q b).2.cfg = s.cfg := by
  rcases s.pushByte_cases q b with ⟨_, e⟩ | ⟨_, e⟩ <;> simp [e]

@[simp] theorem State.popByte_cfg (s : State) (q : RingId) : (s.popByte q).2.cfg = s.cfg := by
  rcases s.popByte_cases q with ⟨_, e⟩ | ⟨_, e⟩ <;> simp [e]

@[simp] theorem State.awaitStartArm_cfg (s : State) (d : Bool) : (s.awaitStartArm d).cfg = s.cfg := by
  cases d <;> rfl

@[simp] theorem State.bitArm_cfg (s : State) (d : Bool) : (s.bitArm d).cfg = s.cfg := rfl

@[simp] theorem State.parityArm_cfg (s : State) (d : Bool) : (s.parityArm d).cfg = s.cfg := rfl

@[simp] theorem State.stopArm_cfg (s : State) (d : Bool) : (s.stopArm d).cfg = s.cfg := by
  unfold State.stopArm
  split <;> simp

theorem State.edgeArm_cfg {s t : State} {d : Bool} (h : s.edgeArm d = some t) : t.cfg = s.cfg := by
  rcases s.edgeArm_cases d with ⟨_, e⟩ | ⟨_, _, e⟩ | ⟨_, e⟩ | ⟨_, e⟩ | ⟨_, e⟩ <;>
    cases e.symm.trans h <;> simp

/-! ### The transmitter -/

@[simp] theorem State.txQuiet_cfg (s : State) : s.txQuiet.cfg = s.cfg := rfl

@[simp] theorem State.dataOut_cfg (s : State) (p : BitVec 4) : (s.dataOut p).cfg = s.cfg := rfl

@[simp] theorem State.nextByte_cfg (s : State) : s.nextByte.cfg = s.cfg := by
  rcases s.nextByte_cases with ⟨_, e⟩ | ⟨_, e⟩ <;> rw [e]

theorem State.txArm_cfg {s t : State} (h : s.txArm = some t) : t.cfg = s.cfg := by
  rcases s.txArm_cases with ⟨_, e⟩ | ⟨_, _, e⟩ | ⟨_, e⟩ | ⟨_, _, e⟩ | ⟨_, e⟩ <;>
    cases e.symm.trans h <;> simp

theorem State.txTick_cfg {s t : State} (h : s.txTick = some t) : t.cfg = s.cfg := by
  rcases s.txTick_cases with ⟨_, e⟩ | ⟨_, e⟩ <;> rw [e] at h
  · cases h; rfl
  · exact (State.txArm_cfg h).trans s.countTick_cfg

/-! ### The sequences of `A_POLL` -/

@[simp] theorem State.readPoll_cfg (s : State) (n : Half) (left : Nat) :
    (s.readPoll n left).cfg = s.cfg := by
  rcases s.readPoll_cases n left with ⟨_, e⟩ | ⟨_, _, e⟩ | ⟨_, _, e⟩ <;> rw [e]

@[simp] theorem State.readPoll_feed (s : State) (n : Half) (left : Nat) :
    (s.readPoll n left).feed = s.feed := by
  rcases s.readPoll_cases n left with ⟨_, e⟩ | ⟨_, _, e⟩ | ⟨_, _, e⟩ <;> rw [e]

@[simp] theorem State.sendPush_cfg (s : State) (ts : Word) (b : Byte) (rest : List Byte) (k : Nat) :
    (s.sendPush ts b rest k).cfg = s.cfg := by
  rcases s.sendPush_cases ts b rest k with ⟨_, e⟩ | ⟨_, e⟩ <;> rw [e]

@[simp] theorem State.sendPush_feed (s : State) (ts : Word) (b : Byte) (rest : List Byte) (k : Nat) :
    (s.sendPush ts b rest k).feed = s.feed := by
  rcases s.sendPush_cases ts b rest k with ⟨_, e⟩ | ⟨_, e⟩ <;> rw [e]

@[simp] theorem State.sendCommit_cfg (s : State) (ts : Word) (k : Nat) :
    (s.sendCommit ts k).cfg = s.cfg := rfl

@[simp] theorem State.sendCommit_feed (s : State) (ts : Word) (k : Nat) :
    (s.sendCommit ts k).feed = s.feed := rfl

@[simp] theorem State.continuePoll_cfg (s : State) : s.continuePoll.cfg = s.cfg := by
  unfold State.continuePoll
  split <;> simp

@[simp] theorem State.continuePoll_feed (s : State) : s.continuePoll.feed = s.feed := by
  unfold State.continuePoll
  split <;> simp

/-! ### The operations that can fault or that branch -/

/-- The states an `RX_EDGE` can end in (R130, R131). -/
theorem execRxEdge_next {d : Bool} {s t : State} (h : execRxEdge d s = .next t) :
    (s.rxArmed = false ∧ t = s.ret .ok) ∨
    (s.rxArmed = true ∧ ∃ u, s.edgeArm d = some u ∧ t = u.ret .ok) := by
  unfold execRxEdge at h
  split at h
  · next ha =>
    split at h
    · next u hu => cases h; exact .inr ⟨ha, u, hu, rfl⟩
    · cases h
  · next ha => cases h; exact .inl ⟨by simpa using ha, rfl⟩

/-- `RX_START` completes only while disarmed (R140). -/
theorem execRxStart_next {s t : State} (h : execRxStart s = .next t) :
    s.rxArmed = false ∧ t = { (s.resetRing .rx).frameReset with rxArmed := true }.ret .ok := by
  unfold execRxStart at h
  split at h
  · cases h
  · next ha => cases h; exact ⟨by simpa using ha, rfl⟩

/-- `TX_INIT` completes only while disarmed (R161). -/
theorem execTxInit_next {n : Half} {s t : State} (h : execTxInit n s = .next t) :
    s.txArmed = false ∧ t = { s.txQuiet with btCompare := n, txArmed := true }.ret .ok := by
  unfold execTxInit at h
  split at h
  · cases h
  · next ha => cases h; exact ⟨by simpa using ha, rfl⟩

/-- `TX_TICK` completes as the tick does (R171). -/
theorem execTxTick_next {s t : State} (h : execTxTick s = .next t) :
    ∃ u, s.txTick = some u ∧ t = u.ret .ok := by
  unfold execTxTick at h
  split at h
  · next u hu => cases h; exact ⟨u, hu, rfl⟩
  · cases h

/-- The states a `BT_CLK` can end in: disarmed, counting, or with the tick it fires (R170). -/
theorem execBtClk_next {s t : State} (h : execBtClk s = .next t) :
    (s.txArmed = false ∧ t = s.ret .ok) ∨
    (s.txArmed = true ∧ s.timerMatch = false ∧ t = { s with btCount := s.btCount + 1 }.ret .ok) ∨
    (s.txArmed = true ∧ s.timerMatch = true ∧
      ∃ u, s.clearBtCount.txTick = some u ∧ t = u.ret .ok) := by
  unfold execBtClk at h
  split at h
  · next ha =>
    split at h
    · next hm =>
      split at h
      · next u hu => cases h; exact .inr (.inr ⟨ha, hm, u, hu, rfl⟩)
      · cases h
    · next hm => cases h; exact .inr (.inl ⟨ha, by simpa using hm, rfl⟩)
  · next ha => cases h; exact .inl ⟨by simpa using ha, rfl⟩

/-- The states the check step of `ENC_SEND` can end in (R191). -/
theorem execEncSend_next {s t : State} (h : execEncSend s = .next t) :
    (s.sendDue = false ∧ t = s.ret .notDue) ∨
    (s.sendDue = true ∧ s.worthSending = false ∧ t = s.ret .suppressed) ∨
    (s.sendDue = true ∧ s.worthSending = true ∧
      t = { s with poll := .sending s.tickCount s.packet 0 }.noRet) := by
  unfold execEncSend at h
  split at h
  · next hd =>
    split at h
    · next hw => cases h; exact .inr (.inr ⟨hd, hw, rfl⟩)
    · next hw => cases h; exact .inr (.inl ⟨hd, by simpa using hw, rfl⟩)
  · next hd => cases h; exact .inl ⟨by simpa using hd, rfl⟩

/-! ### Every operation, every step -/

/-- No operation changes the configuration (R44). -/
theorem exec_cfg {i : Instr} {s t : State} (h : exec i s = .next t) : t.cfg = s.cfg := by
  cases i with
  | rxEdge d =>
    rcases execRxEdge_next h with ⟨_, rfl⟩ | ⟨_, u, hu, rfl⟩
    · rfl
    · exact (u.ret_cfg .ok).trans (State.edgeArm_cfg hu)
  | rxStart =>
    obtain ⟨_, rfl⟩ := execRxStart_next h
    rfl
  | txInit n =>
    obtain ⟨_, rfl⟩ := execTxInit_next h
    rfl
  | btClk =>
    rcases execBtClk_next h with ⟨_, rfl⟩ | ⟨_, _, rfl⟩ | ⟨_, _, u, hu, rfl⟩
    · rfl
    · rfl
    · calc (u.ret .ok).cfg = u.cfg := u.ret_cfg .ok
        _ = s.clearBtCount.cfg := State.txTick_cfg hu
        _ = s.cfg := s.clearBtCount_cfg
  | txTick =>
    obtain ⟨u, hu, rfl⟩ := execTxTick_next h
    exact (u.ret_cfg .ok).trans (State.txTick_cfg hu)
  | encSend =>
    rcases execEncSend_next h with ⟨_, rfl⟩ | ⟨_, _, rfl⟩ | ⟨_, _, rfl⟩ <;> rfl
  | rxPoll => cases h; exact s.popByte_cfg .rx
  | rxRead n => cases h; exact s.readPoll_cfg n n.toNat
  | txEnqueue b => cases h; exact s.pushByte_cfg .tx b
  | rbReset q => cases h; exact s.resetRing_cfg q
  | rbPush q b => cases h; exact s.pushByte_cfg q b
  | rbPop q => cases h; exact s.popByte_cfg q
  | rxStop | txTeardown | encReport | encReset | rbCount | reset => cases h; rfl

/-- No step changes the configuration (R11, R44). -/
theorem step_cfg {s t : State} (h : step s = .next t) : t.cfg = s.cfg := by
  rcases step_cases s with ⟨_, e⟩ | ⟨_, _, _, e⟩ | ⟨_, _, _, _, _, _, e⟩ | ⟨_, _, _, _, _, e⟩ |
    ⟨_, _, e⟩ <;> rw [e] at h
  · cases h
    exact (s.turn s.feed.nextIssuer).continuePoll_cfg
  · cases h
  · cases h
  · exact (exec_cfg h).trans (s.issue_cfg _)
  · cases h
    rfl

end Sys2Proof.Machine
end

section
/-! CERTIFICATES. The statements of spec/00_scope.md. -/

namespace Sys2Proof.Scope

open Sys2Proof.Machine

/-- Settles O56, from the lemma that no step of any kind writes `cfg`. -/
theorem configurationIsFixedForTheRun : Obligations.ConfigurationIsFixedForTheRun := by
  intro s t h
  exact step_cfg h

/-- Settles O6: the step is the issue of the word, which decodes and passes the agent check; what the
issue does to the sequences is `Feed.program_issue`. -/
theorem stepRunsTheDecodedOperation : Obligations.StepRunsTheDecodedOperation := by
  intro s a w i ha hw hd hc
  have hstep : step s = exec i (s.issue a) := (step_of_word ha hw).trans (issueWord_of_runs hd hc)
  have hprogram : ∀ b, (s.issue a).feed.program b =
      if b = a then (s.feed.program a).tail else s.feed.program b := s.feed.program_issue a
  exact ⟨hstep, hprogram, s.feed.issue_schedule a, s.feed.issue_turns a, rfl, rfl, rfl⟩

/-- Settles O9: the turn is inside a sequence, and no step of a sequence writes the feed that the turn
left behind. -/
theorem pollTurnContinuesItsSequence : Obligations.PollTurnContinuesItsSequence := by
  intro s ha hp
  have hfeed : (s.turn .poll).continuePoll.feed = s.feed.turn .poll := by simp
  refine ⟨_, step_of_midSequence ha (State.midSequence_poll.mpr hp), rfl, ?_, ?_⟩ <;> rw [hfeed] <;> rfl

/-- Settles O10: the step is the turn alone, which writes the feed and the returned result only. -/
theorem idleTurnKeepsTheBlock : Obligations.IdleTurnKeepsTheBlock := by
  intro s hm hw
  exact ⟨_, step_of_idle rfl hm hw, rfl⟩

end Sys2Proof.Scope
end

section
/-! SUPPORT. Every operation over the shared parts of the state keeps it legal (spec/10_state.md R23,
R31, R36, R40; spec/41_ring_buffer.md R115): the observation and the feed, the rings, BitFrameState, the
transmitter, the aggregate and the sequences of `A_POLL`. -/

namespace Sys2Proof.Machine

/-! ### The observation, the feed and the rings -/

theorem State.Inv.emit {s : State} (h : s.Inv) (e : Event) : (s.emit e).Inv := { h with }

theorem State.Inv.ret {s : State} (h : s.Inv) (r : Result) : (s.ret r).Inv := { h with }

theorem State.Inv.noRet {s : State} (h : s.Inv) : s.noRet.Inv := { h with }

theorem State.Inv.turn {s : State} (h : s.Inv) (a : Issuer) : (s.turn a).Inv := { h with }

theorem State.Inv.issue {s : State} (h : s.Inv) (a : Issuer) : (s.issue a).Inv := { h with }

theorem State.Inv.countTick {s : State} (h : s.Inv) : s.countTick.Inv := { h with }

theorem State.Inv.ring {s : State} (h : s.Inv) (q : RingId) : (s.ring q).Ok (s.capLog2 q) := by
  cases q
  · exact h.rx
  · exact h.tx

theorem State.Inv.setRing {s : State} (h : s.Inv) {q : RingId} {r : Ring} (hr : r.Ok (s.capLog2 q)) :
    (s.setRing q r).Inv := by
  cases q
  · exact { h with rx := hr }
  · exact { h with tx := hr }

theorem State.Inv.resetRing {s : State} (h : s.Inv) (q : RingId) : (s.resetRing q).Inv :=
  h.setRing (Ring.ok_reset (h.ring q))

theorem State.Inv.pushByte {s : State} (h : s.Inv) (q : RingId) (b : Byte) :
    (s.pushByte q b).2.Inv := by
  rcases s.pushByte_cases q b with ⟨_, e⟩ | ⟨hroom, e⟩ <;> rw [e]
  · exact (h.setRing (Ring.ok_drop (h.ring q))).emit _
  · exact h.setRing (Ring.ok_store (h.ring q) hroom b)

theorem State.Inv.popByte {s : State} (h : s.Inv) (q : RingId) : (s.popByte q).2.Inv := by
  rcases s.popByte_cases q with ⟨_, e⟩ | ⟨hbyte, e⟩ <;> rw [e]
  · exact h
  · exact h.setRing (Ring.ok_advance (h.ring q) hbyte)

/-- A cleared ring is the reset one but for the overflow counter, of which legality does not speak. -/
theorem Ring.ok_cleared {n : Nat} {r : Ring} (h : r.Ok n) : r.cleared.Ok n :=
  show r.reset.Ok n from Ring.ok_reset h

theorem Ring.ok_powerOn (n : Nat) : Ring.powerOn.Ok n := by
  have hwrap : 0 < wrap n := Nat.two_pow_pos _
  have hcount : Ring.powerOn.count n = 0 := Ring.count_reset n .powerOn
  exact ⟨hwrap, hwrap, by omega, rfl, by simp [Ring.powerOn], by simp [hcount]⟩

/-! ### BitFrameState -/

theorem shiftIn_getLsbD (d : Bool) (v : Byte) {i : Nat} (hi : i < 8) :
    (shiftIn d v).getLsbD i = if i = 7 then d else v.getLsbD (i + 1) := by
  unfold shiftIn
  rw [BitVec.getLsbD_append]
  rcases Nat.lt_or_eq_of_le (Nat.le_of_lt_succ hi) with hlt | rfl
  · simp [hlt, Nat.ne_of_lt hlt, Nat.add_comm]
  · simp

/-- Shifting a bit in folds it into the byte's parity and drops bit 0 from it (R133). -/
theorem xorBits_shiftIn (d : Bool) (v : Byte) :
    xorBits (shiftIn d v) = ((xorBits v ^^ v.getLsbD 0) ^^ d) := by
  simp only [xorBits, shiftIn_getLsbD, Nat.reduceLT, Nat.reduceEqDiff, Nat.reduceAdd, if_true,
    if_false]
  cases v.getLsbD 0 <;> simp

theorem BitFrame.ok_initial : BitFrame.initial.Ok := by
  refine ⟨by decide, fun _ => rfl, fun i _ _ => ?_, by decide, fun _ => rfl⟩
  exact BitVec.getLsbD_zero

/-- A 0 in AwaitStart begins a frame: no bit is received yet (R134). -/
theorem BitFrame.Ok.start {f : BitFrame} (h : f.Ok) (hp : f.bitpos.toNat = 0) :
    BitFrame.Ok { f with bitpos := 1 } := by
  obtain ⟨_, hinit, _, _, _⟩ := h
  have hf : f = .initial := hinit (BitVec.eq_of_toNat_eq hp)
  subst hf
  refine ⟨by decide, by decide, fun i _ _ => ?_, by decide, fun _ => rfl⟩
  exact BitVec.getLsbD_zero

/-- A data bit comes in at bit 7; what leaves at bit 0 is a bit not yet received, which is 0, so the
running parity stays that of the byte (R133). -/
theorem BitFrame.Ok.shiftBit {f : BitFrame} (h : f.Ok) (h1 : 1 ≤ f.bitpos.toNat)
    (h8 : f.bitpos.toNat ≤ 8) (d : Bool) :
    BitFrame.Ok { f with
      shift := shiftIn d f.shift, parity := foldParity f.parity d, bitpos := f.bitpos + 1 } := by
  obtain ⟨_, _, hlow, hpar, hpbit⟩ := h
  have hnext : (f.bitpos + 1).toNat = f.bitpos.toNat + 1 := by bv_omega
  refine ⟨by simp only [hnext]; omega, fun h0 => ?_, fun i hi hlt => ?_, ?_, fun _ => hpbit ?_⟩
  · have hzero : f.bitpos + 1 = 0 := h0
    rw [hzero] at hnext
    simp at hnext
  · simp only [hnext] at hlt
    have hi7 : i ≠ 7 := by omega
    simp only [shiftIn_getLsbD d f.shift hi, hi7, if_false]
    exact hlow (i + 1) (by omega) (by omega)
  · have hbit0 : f.shift.getLsbD 0 = false := hlow 0 (by omega) (by omega)
    simp only [xorBits_shiftIn, foldParity, hpar, hbit0, Bool.xor_false]
  · intro h10
    rw [h10] at h8
    simp at h8

/-- The parity bit is latched on the way into Stop (R135). -/
theorem BitFrame.Ok.latchParity {f : BitFrame} (h : f.Ok) (d : Bool) :
    BitFrame.Ok { f with pbit := d, bitpos := 10 } := by
  obtain ⟨_, _, _, hpar, _⟩ := h
  refine ⟨le_refl 10, by simp, fun i _ hlt => ?_, hpar, by simp⟩
  have hlt' : i + 10 < 9 := hlt
  omega

theorem State.Inv.frameReset {s : State} (h : s.Inv) : s.frameReset.Inv :=
  { h with frame := BitFrame.ok_initial, disarmed := fun _ => rfl }

theorem State.Inv.setFrame {s : State} (h : s.Inv) (ha : s.rxArmed = true) {f : BitFrame} (hf : f.Ok) :
    State.Inv { s with frame := f } :=
  { h with frame := hf, disarmed := fun hd => absurd (ha.symm.trans hd) (by decide) }

theorem State.Inv.stopArm {s : State} (h : s.Inv) (d : Bool) : (s.stopArm d).Inv := by
  unfold State.stopArm
  split
  · exact (h.pushByte .rx _).frameReset
  · exact (h.emit _).frameReset

/-- An armed edge keeps the state legal, whichever of the eleven states it comes in (R132). -/
theorem State.Inv.edgeArm {s u : State} {d : Bool} (h : s.Inv) (ha : s.rxArmed = true)
    (hu : s.edgeArm d = some u) : u.Inv := by
  rcases s.edgeArm_cases d with ⟨hp, e⟩ | ⟨h1, h8, e⟩ | ⟨_, e⟩ | ⟨_, e⟩ | ⟨_, e⟩ <;>
    cases e.symm.trans hu
  · cases d
    · exact h.setFrame ha (h.frame.start hp)
    · exact h.emit .startError
  · exact h.setFrame ha (h.frame.shiftBit h1 h8 d)
  · exact h.setFrame ha (h.frame.latchParity d)
  · exact h.stopArm d

/-! ### The transmitter and the bit timer -/

theorem State.Inv.btCount_le {s : State} (h : s.Inv) : s.btCount ≤ s.btCompare := by
  obtain ⟨_, _, _, _, _, _, hle, _⟩ := h.txOk
  exact hle

/-- The registers of the transmitter but for the timer's, written while armed. -/
theorem State.Inv.setTx {s : State} (h : s.Inv) (ha : s.txArmed = true) {r : Ring} {p : BitVec 4}
    {v : Byte} {l : Bool} (hr : r.Ok s.cfg.txCapLog2) (h10 : p.toNat ≤ 10)
    (hextra : p = 10 → s.cfg.stopBits = .two) (hspace : p = 1 → l = false)
    (hmark : p = 0 ∨ p = 9 ∨ p = 10 → l = true) :
    State.Inv { s with tx := r, txState := p, txShift := v, txLine := l } :=
  { h with
    tx := hr
    txOk := ⟨h10, hextra, fun e => hmark (.inl e), hspace, fun e => hmark (.inr (.inl e)),
      fun e => hmark (.inr (.inr e)), h.btCount_le, fun hd => absurd (ha.symm.trans hd) (by decide)⟩ }

/-- `NextByte()` goes to Idle with the line at mark or to Start with it at space (R172). -/
theorem State.Inv.nextByte {s : State} (h : s.Inv) (ha : s.txArmed = true) : s.nextByte.Inv := by
  rcases s.nextByte_cases with ⟨_, e⟩ | ⟨hbyte, e⟩ <;> rw [e]
  · exact h.setTx ha h.tx (by decide) (by simp) (by decide) (by decide)
  · exact h.setTx ha (Ring.ok_advance h.tx hbyte) (by decide) (by simp) (by decide) (by decide)

/-- A tick's transition keeps the state legal, whichever of the eleven states it comes in (R171). -/
theorem State.Inv.txArm {s u : State} (h : s.Inv) (ha : s.txArmed = true) (hu : s.txArm = some u) :
    u.Inv := by
  rcases s.txArm_cases with ⟨_, e⟩ | ⟨h1, h7, e⟩ | ⟨_, e⟩ | ⟨_, htwo, e⟩ | ⟨_, e⟩ <;>
    cases e.symm.trans hu
  · exact h.nextByte ha
  · have hnext : (s.txState + 1).toNat = s.txState.toNat + 1 := by bv_omega
    exact h.setTx ha h.tx (by omega) (fun e => by bv_omega) (fun e => by bv_omega) (by bv_omega)
  · exact h.setTx ha h.tx (by decide) (by simp) (by decide) (by decide)
  · exact h.setTx ha h.tx (by decide) (fun _ => htwo) (by decide) (by decide)

theorem State.Inv.txTick {s u : State} (h : s.Inv) (hu : s.txTick = some u) : u.Inv := by
  rcases s.txTick_cases with ⟨_, e⟩ | ⟨ha, e⟩
  · cases e.symm.trans hu
    exact h
  · exact h.countTick.txArm ha (e.symm.trans hu)

theorem State.Inv.setBtCount {s : State} (h : s.Inv) (ha : s.txArmed = true) {c : Half}
    (hc : c ≤ s.btCompare) : State.Inv { s with btCount := c } := by
  obtain ⟨h10, hextra, hidle, hstart, hstop, hextraMark, _, _⟩ := h.txOk
  exact { h with
    txOk := ⟨h10, hextra, hidle, hstart, hstop, hextraMark, hc,
      fun hd => absurd (ha.symm.trans hd) (by decide)⟩ }

/-- Short of the compare value, the timer counts without passing it (R170). -/
theorem State.btCount_succ_le {s : State} (hle : s.btCount ≤ s.btCompare)
    (hm : s.timerMatch = false) : s.btCount + 1 ≤ s.btCompare := by
  have hne : s.btCount ≠ s.btCompare := by simpa [State.timerMatch] using hm
  bv_omega

/-- Quiet and at a compare value of its choice, armed or not, the transmitter is legal (R161, R162). -/
theorem State.Inv.txQuiet {s : State} (h : s.Inv) (n : Half) (a : Bool) :
    State.Inv { s.txQuiet with btCompare := n, txArmed := a } :=
  { h.resetRing .tx with
    txOk := ⟨by simp [State.txQuiet], by simp [State.txQuiet], fun _ => rfl, by simp [State.txQuiet],
      fun _ => rfl, fun _ => rfl, Nat.zero_le _, fun _ => ⟨rfl, rfl, rfl⟩⟩ }

/-! ### The aggregate and the packet -/

/-- A saturated sum is within the bound (R13, R16). -/
theorem satAdd_ge (a b : Half) : -32767 ≤ (satAdd a b).toInt := by
  unfold satAdd clamp
  rw [BitVec.toInt_ofInt, Int.bmod_eq_of_le] <;> omega

/-- A byte with bit 7 clear is below 0x80 (R88). -/
theorem toNat_lt_of_bit7 {b : Byte} (h : b.getLsbD 7 = false) : b.toNat < 0x80 := by
  have := BitVec.msb_eq_false_iff_two_mul_lt.mp (show b.msb = false from h)
  omega

theorem packetByte0_bit7 (buttons : Buttons) (dx8 dy8 : Byte) :
    (packetByte0 buttons dx8 dy8).getLsbD 7 = false := by
  simp [packetByte0]

theorem packetLow_bit7 (d8 : Byte) : (packetLow d8).getLsbD 7 = false := by
  simp [packetLow]

theorem packetByte3_bit7 {mode : Mode} {buttons : Buttons} {aw : Half} {b : Byte}
    (hb : b ∈ packetByte3 mode buttons aw) : b.getLsbD 7 = false := by
  cases mode with
  | twoButton => cases hb
  | threeButton | wheelMouse =>
    cases List.mem_singleton.mp hb
    simp

theorem length_encodePacket (mode : Mode) (buttons : Buttons) (ax ay aw : Half) :
    (encodePacket mode buttons ax ay aw).length = pktLen mode := by
  cases mode <;> rfl

/-- No byte of a packet is 0x80 or more (R88, R194). -/
theorem toNat_lt_of_mem_encodePacket {mode : Mode} {buttons : Buttons} {ax ay aw : Half} {b : Byte}
    (hb : b ∈ encodePacket mode buttons ax ay aw) : b.toNat < 0x80 := by
  simp only [encodePacket, List.mem_append, List.mem_cons, List.not_mem_nil, or_false] at hb
  apply toNat_lt_of_bit7
  rcases hb with (rfl | rfl | rfl) | hb
  · exact packetByte0_bit7 ..
  · exact packetLow_bit7 _
  · exact packetLow_bit7 _
  · exact packetByte3_bit7 hb

theorem State.Inv.setPoll {s : State} (h : s.Inv) {p : PollSeq} (hp : p.Ok s.cfg.mode) :
    State.Inv { s with poll := p } := { h with pollOk := hp }

/-- The sequence the check step of `ENC_SEND` begins holds the whole packet (R191). -/
theorem State.packet_ok (s : State) (ts : Word) : (PollSeq.sending ts s.packet 0).Ok s.cfg.mode :=
  ⟨(length_encodePacket ..).le, fun _ hb => toNat_lt_of_mem_encodePacket hb⟩

/-- The sums at 0 are legal in every mode, and whatever the buttons and the ticks say (R193, R200). -/
theorem State.Inv.clearSums {s : State} (h : s.Inv) (cur last : Buttons) (ts : Word) :
    State.Inv { s with
      accDx := 0, accDy := 0, accWheel := 0, curButtons := cur, lastButtons := last
      lastSendTick := ts } :=
  { h with encOk := ⟨by simp, by simp, by simp, fun _ => rfl⟩ }

/-! ### The sequences of `A_POLL` -/

/-- A poll with at most `n` polls after it keeps the read within its budget (R142). -/
theorem State.Inv.readPoll {s : State} (h : s.Inv) {n : Half} {left : Nat} (hle : left ≤ n.toNat) :
    (s.readPoll n left).Inv := by
  rcases s.readPoll_cases n left with ⟨hbyte, e⟩ | ⟨_, _, e⟩ | ⟨_, hne, e⟩ <;> rw [e]
  · exact { h with rx := Ring.ok_advance h.rx hbyte, pollOk := trivial }
  · exact { h with pollOk := trivial }
  · exact { h with pollOk := show left - 1 < n.toNat by omega }

/-- A push step takes one byte from the packet and counts at most that one (R191). -/
theorem State.Inv.sendPush {s : State} (h : s.Inv) {ts : Word} {b : Byte} {rest : List Byte} {k : Nat}
    (hp : (PollSeq.sending ts (b :: rest) k).Ok s.cfg.mode) : (s.sendPush ts b rest k).Inv := by
  obtain ⟨hlen, hlt⟩ := hp
  have hrest : ∀ c ∈ rest, c.toNat < 0x80 := fun c hc => hlt c (List.mem_cons_of_mem _ hc)
  simp only [List.length_cons] at hlen
  rcases s.sendPush_cases ts b rest k with ⟨hroom, e⟩ | ⟨_, e⟩ <;> rw [e]
  · exact { h with
      tx := Ring.ok_store h.tx hroom b
      pollOk := ⟨show rest.length + (k + 1) ≤ pktLen s.cfg.mode by omega, hrest⟩ }
  · exact { h with
      tx := Ring.ok_drop h.tx
      pollOk := ⟨show rest.length + k ≤ pktLen s.cfg.mode by omega, hrest⟩ }

theorem State.Inv.sendCommit {s : State} (h : s.Inv) (ts : Word) (k : Nat) : (s.sendCommit ts k).Inv :=
  ((h.clearSums s.curButtons s.curButtons ts).setPoll (p := .idle) trivial).ret _

theorem State.Inv.continuePoll {s : State} (h : s.Inv) : s.continuePoll.Inv := by
  have hok := h.pollOk
  unfold State.continuePoll
  split
  · exact h
  · next n left e =>
    rw [e] at hok
    exact h.readPoll (Nat.le_of_lt hok)
  · next ts b rest k e =>
    rw [e] at hok
    exact h.sendPush hok
  · exact h.sendCommit _ _

/-! ### Every operation, every step -/

theorem State.inv_resetWith {c : Config} (hc : c.wf) : (State.resetWith c).Inv where
  cfg := hc
  rx := Ring.ok_powerOn _
  tx := Ring.ok_powerOn _
  frame := BitFrame.ok_initial
  disarmed := fun _ => rfl
  txOk := ⟨by simp [State.resetWith], by simp [State.resetWith], fun _ => rfl,
    by simp [State.resetWith], fun _ => rfl, fun _ => rfl, Nat.zero_le _, fun _ => ⟨rfl, rfl, rfl⟩⟩
  encOk := ⟨by simp [State.resetWith], by simp [State.resetWith], by simp [State.resetWith],
    fun _ => rfl⟩
  pollOk := trivial

/-- `RESET` leaves every register as the reset state has it but the storage, which is kept (R250). -/
theorem State.Inv.resetBlock {s : State} (h : s.Inv) : s.resetBlock.Inv :=
  { State.inv_resetWith h.cfg with rx := Ring.ok_cleared h.rx, tx := Ring.ok_cleared h.tx }

/-- Saturated sums are within the bound, and outside WheelMouse mode the wheel's is kept at 0 (R190). -/
theorem State.Inv.execEncReport {s t : State} {l r m : Bool} {dx dy wheel : Byte} (h : s.Inv)
    (ht : execEncReport l r m dx dy wheel s = .next t) : t.Inv := by
  obtain ⟨_, _, hwheel, hzero⟩ := h.encOk
  cases ht
  refine { h with encOk := ⟨satAdd_ge _ _, satAdd_ge _ _, ?_, fun hm => ?_⟩ }
  · cases e : s.cfg.mode with
    | wheelMouse => simpa [e] using satAdd_ge _ _
    | twoButton | threeButton => simpa [e] using hwheel
  · cases e : s.cfg.mode with
    | wheelMouse => exact absurd e hm
    | twoButton | threeButton => simpa [e] using hzero hm

/-- Every operation keeps the state legal. -/
theorem State.Inv.exec {i : Instr} {s t : State} (h : s.Inv) (ht : exec i s = .next t) : t.Inv := by
  cases i with
  | rxEdge d =>
    rcases execRxEdge_next ht with ⟨_, rfl⟩ | ⟨ha, u, hu, rfl⟩
    · exact h.ret .ok
    · exact (h.edgeArm ha hu).ret .ok
  | rxStart =>
    obtain ⟨_, rfl⟩ := execRxStart_next ht
    exact { (h.resetRing .rx).frameReset with disarmed := fun _ => rfl }
  | rxStop =>
    cases ht
    exact { h.frameReset with disarmed := fun _ => rfl }
  | rxPoll => cases ht; exact (h.popByte .rx).ret _
  | rxRead n => cases ht; exact h.readPoll le_rfl
  | txInit n =>
    obtain ⟨_, rfl⟩ := execTxInit_next ht
    exact (h.txQuiet n true).ret .ok
  | txTeardown => cases ht; exact (h.txQuiet s.btCompare false).ret .ok
  | txEnqueue b => cases ht; exact (h.pushByte .tx b).ret _
  | btClk =>
    rcases execBtClk_next ht with ⟨_, rfl⟩ | ⟨ha, hm, rfl⟩ | ⟨ha, _, u, hu, rfl⟩
    · exact h.ret .ok
    · exact (h.setBtCount ha (State.btCount_succ_le h.btCount_le hm)).ret .ok
    · have hcleared : s.clearBtCount.Inv := h.setBtCount ha (Nat.zero_le _)
      exact (hcleared.txTick hu).ret .ok
  | txTick =>
    obtain ⟨u, hu, rfl⟩ := execTxTick_next ht
    exact (h.txTick hu).ret .ok
  | encReport l r m dx dy wheel => exact h.execEncReport ht
  | encSend =>
    rcases execEncSend_next ht with ⟨_, rfl⟩ | ⟨_, _, rfl⟩ | ⟨_, _, rfl⟩
    · exact h.ret .notDue
    · exact h.ret .suppressed
    · exact (h.setPoll (s.packet_ok s.tickCount)).noRet
  | encReset => cases ht; exact (h.clearSums 0 0 s.tickCount).ret .ok
  | rbReset q => cases ht; exact (h.resetRing q).ret .ok
  | rbPush q b => cases ht; exact (h.pushByte q b).ret _
  | rbPop q => cases ht; exact (h.popByte q).ret _
  | rbCount q => cases ht; exact h.ret _
  | reset => cases ht; exact h.resetBlock.ret .ok

/-- Every step keeps the state legal: the next step of a sequence, an operation, or the turn alone. -/
theorem State.Inv.step {s t : State} (h : s.Inv) (ht : step s = .next t) : t.Inv := by
  rcases step_cases s with ⟨_, e⟩ | ⟨_, _, _, e⟩ | ⟨_, _, _, _, _, _, e⟩ | ⟨_, _, _, _, _, e⟩ |
    ⟨_, _, e⟩ <;> rw [e] at ht
  · cases ht
    exact (h.turn _).continuePoll
  · cases ht
  · cases ht
  · exact (h.issue _).exec ht
  · cases ht
    exact h.turn _

end Sys2Proof.Machine
end

section
/-! SUPPORT. A ring seen as the list of its bytes, oldest first (spec/41_ring_buffer.md R115): what each
ring primitive does to the list. -/

namespace Sys2Proof.Machine

@[simp] theorem Ring.length_contents (n : Nat) (q : RingId) (r : Ring) :
    (r.contents n q).length = r.count n := by
  simp [Ring.contents]

theorem Ring.contents_eq_nil_of_count {n : Nat} {q : RingId} {r : Ring} (h : r.count n = 0) :
    r.contents n q = [] := by
  simp [Ring.contents, h]

theorem Ring.contents_reset (n : Nat) (q : RingId) (r : Ring) : r.reset.contents n q = [] :=
  Ring.contents_eq_nil_of_count (r.count_reset n)

/-- Only the overflow counter is written, which the list does not show. -/
@[simp] theorem Ring.contents_drop (n : Nat) (q : RingId) (r : Ring) :
    r.drop.contents n q = r.contents n q := rfl

theorem Ring.Ok.count_le {n : Nat} {r : Ring} (h : r.Ok n) : r.count n ≤ cap n := by
  obtain ⟨_, _, hc, _, _, _⟩ := h
  exact hc

theorem Ring.isFull_iff {n : Nat} {r : Ring} : r.isFull n = true ↔ r.count n = cap n := by
  simp [Ring.isFull]

theorem Ring.isFull_eq_false {n : Nat} {r : Ring} : r.isFull n = false ↔ r.count n ≠ cap n := by
  simp [Ring.isFull]

theorem Ring.isEmpty_iff {n : Nat} {r : Ring} : r.isEmpty n = true ↔ r.count n = 0 := by
  simp [Ring.isEmpty]

theorem Ring.isEmpty_eq_false {n : Nat} {r : Ring} : r.isEmpty n = false ↔ r.count n ≠ 0 := by
  simp [Ring.isEmpty]

/-- A push on a ring with room appends: the head's slot comes after the queued ones and is none of
them. -/
theorem Ring.contents_store {n : Nat} {r : Ring} (h : r.Ok n) (hroom : r.isFull n = false) (q : RingId)
    (b : Byte) : (r.store n b).contents n q = r.contents n q ++ [b] := by
  obtain ⟨hh, ht, hc, _, _, _⟩ := h
  have hne : r.count n ≠ cap n := Ring.isFull_eq_false.mp hroom
  have hlt : r.count n < cap n := by omega
  unfold Ring.contents
  rw [Ring.count_store hh ht hlt, List.range_succ, List.map_append, List.map_singleton,
    Ring.store_buf, Ring.store_tail, ← slot_tail_add_count hh ht, memRead_write_same]
  congr 1
  refine List.map_congr_left fun k hk => memRead_write_other q _ ?_ b
  have hk : k < r.count n := List.mem_range.mp hk
  exact slot_add_ne hk (by omega)

/-- The tail's byte is the first of the list, and a pop leaves the rest. -/
theorem Ring.contents_eq_oldest_cons {n : Nat} {r : Ring} (h : r.Ok n) (hbyte : r.isEmpty n = false)
    (q : RingId) : r.contents n q = r.oldest n q :: (r.advance n).contents n q := by
  obtain ⟨hh, ht, _, _, _, _⟩ := h
  have hne : r.count n ≠ 0 := Ring.isEmpty_eq_false.mp hbyte
  obtain ⟨c, hc⟩ := Nat.exists_eq_succ_of_ne_zero hne
  unfold Ring.contents
  rw [Ring.count_advance hh ht (by omega), hc, List.range_succ_eq_map, List.map_cons, List.map_map]
  congr 1
  refine List.map_congr_left fun k _ => ?_
  rw [Ring.advance_buf, Ring.advance_tail, slot_nextIndex_add _ _ _ ht]
  rfl

/-- In a legal ring the byte a pop reads was written there by a push (R29). -/
theorem Ring.Ok.read?_tail {n : Nat} {r : Ring} (h : r.Ok n) (hbyte : r.isEmpty n = false)
    (q : RingId) : r.buf.read? (slot n r.tail) = some (r.oldest n q) := by
  obtain ⟨_, _, _, _, _, hwritten⟩ := h
  have hne : r.count n ≠ 0 := Ring.isEmpty_eq_false.mp hbyte
  obtain ⟨b, hb⟩ := Option.isSome_iff_exists.mp (hwritten 0 (by omega))
  rw [Nat.add_zero] at hb
  simp [Ring.oldest, memRead, hb]

/-! ### The list before and after each primitive, on the state -/

@[simp] theorem State.emit_ring (s : State) (e : Event) (q : RingId) : (s.emit e).ring q = s.ring q := by
  cases q <;> rfl

@[simp] theorem State.ret_ring (s : State) (r : Result) (q : RingId) : (s.ret r).ring q = s.ring q := by
  cases q <;> rfl

theorem State.contents_pushByte {s : State} {q : RingId} (h : (s.ring q).Ok (s.capLog2 q)) (b : Byte) :
    ((s.pushByte q b).2.ring q).contents (s.capLog2 q) q =
      if ((s.ring q).contents (s.capLog2 q) q).length < cap (s.capLog2 q) then
        (s.ring q).contents (s.capLog2 q) q ++ [b]
      else (s.ring q).contents (s.capLog2 q) q := by
  have hc := h.count_le
  rw [Ring.length_contents]
  rcases s.pushByte_cases q b with ⟨hfull, e⟩ | ⟨hroom, e⟩ <;> rw [e]
  · have hfull := Ring.isFull_iff.mp hfull
    rw [if_neg (by omega), State.emit_ring, State.ring_setRing, Ring.contents_drop]
  · have hne := Ring.isFull_eq_false.mp hroom
    rw [if_pos (by omega), State.ring_setRing, Ring.contents_store h hroom]

/-- On an empty list a pop answers `Empty` and leaves the state; else it takes the first byte. -/
theorem State.popByte_contents {s : State} {q : RingId} (h : (s.ring q).Ok (s.capLog2 q)) :
    ((s.ring q).contents (s.capLog2 q) q = [] ∧ s.popByte q = (.empty, s)) ∨
    ∃ b, (s.ring q).contents (s.capLog2 q) q =
        b :: ((s.popByte q).2.ring q).contents (s.capLog2 q) q ∧
      (s.popByte q).1 = .byte b := by
  rcases s.popByte_cases q with ⟨hempty, e⟩ | ⟨hbyte, e⟩
  · exact .inl ⟨Ring.contents_eq_nil_of_count (Ring.isEmpty_iff.mp hempty), e⟩
  · refine .inr ⟨(s.ring q).oldest (s.capLog2 q) q, ?_, by rw [e]⟩
    rw [e, State.ring_setRing]
    exact Ring.contents_eq_oldest_cons h hbyte q

end Sys2Proof.Machine
end

section
/-! SUPPORT. What each shared operation writes, as an equation: its result is the state before with the
named registers replaced, everything else kept (spec/10_state.md R20, R32). -/

namespace Sys2Proof.Machine

/-! ### Ring primitives and the receiver -/

/-- The overflow counter sticks at its last value (R16, R30). -/
theorem satInc16_toNat (c : Half) : (satInc16 c).toNat = min (c.toNat + 1) 0xFFFF := by
  unfold satInc16
  split
  · next h => subst h; rfl
  · next h => bv_omega

/-- A push writes the ring, but for its tail, and the history (R112). -/
theorem State.pushByte_writes (s : State) (q : RingId) (b : Byte) : ∃ r ev,
    r.tail = (s.ring q).tail ∧ (s.pushByte q b).2 = { s.setRing q r with events := ev } := by
  rcases s.pushByte_cases q b with ⟨_, e⟩ | ⟨_, e⟩ <;> rw [e]
  · exact ⟨(s.ring q).drop, _, rfl, rfl⟩
  · exact ⟨(s.ring q).store (s.capLog2 q) b, s.events, rfl, by cases q <;> rfl⟩

/-- A pop writes the ring's tail (R113). -/
theorem State.popByte_writes (s : State) (q : RingId) : ∃ k,
    (s.popByte q).2 = s.setRing q { s.ring q with tail := k } := by
  rcases s.popByte_cases q with ⟨_, e⟩ | ⟨_, e⟩ <;> rw [e]
  · exact ⟨(s.ring q).tail, (s.setRing_ring q).symm⟩
  · exact ⟨_, rfl⟩

/-- An armed edge writes BitFrameState, the RX ring but for its tail, and the history (R132). -/
theorem State.edgeArm_writes {s u : State} {d : Bool} (hu : s.edgeArm d = some u) : ∃ f r ev,
    r.tail = s.rx.tail ∧ u = { s with frame := f, rx := r, events := ev } := by
  rcases s.edgeArm_cases d with ⟨_, e⟩ | ⟨_, _, e⟩ | ⟨_, e⟩ | ⟨_, e⟩ | ⟨_, e⟩ <;>
    cases e.symm.trans hu
  · cases d <;> exact ⟨_, s.rx, _, rfl, rfl⟩
  · exact ⟨_, s.rx, _, rfl, rfl⟩
  · exact ⟨_, s.rx, _, rfl, rfl⟩
  · obtain ⟨r, ev, hr, e⟩ := s.pushByte_writes .rx s.frame.shift
    unfold State.stopArm
    split
    · exact ⟨_, r, ev, hr, by rw [e]; rfl⟩
    · exact ⟨_, s.rx, _, rfl, rfl⟩

/-! ### The transmitter -/

/-- `NextByte()` writes the TX ring's tail, the shift register, the line and the state (R172). -/
theorem State.nextByte_writes (s : State) : ∃ k p v l,
    s.nextByte =
      { s with tx := { s.tx with tail := k }, txState := p, txShift := v, txLine := l } := by
  rcases s.nextByte_cases with ⟨_, e⟩ | ⟨_, e⟩ <;> rw [e]
  · exact ⟨s.tx.tail, _, _, _, rfl⟩
  · exact ⟨_, _, _, _, rfl⟩

/-- A tick's transition writes what `NextByte()` can (R171). -/
theorem State.txArm_writes {s u : State} (hu : s.txArm = some u) : ∃ k p v l,
    u = { s with tx := { s.tx with tail := k }, txState := p, txShift := v, txLine := l } := by
  rcases s.txArm_cases with ⟨_, e⟩ | ⟨_, _, e⟩ | ⟨_, e⟩ | ⟨_, _, e⟩ | ⟨_, e⟩ <;>
    cases e.symm.trans hu
  · exact s.nextByte_writes
  · exact ⟨s.tx.tail, _, _, _, rfl⟩
  · exact ⟨s.tx.tail, _, _, _, rfl⟩
  · exact ⟨s.tx.tail, _, _, _, rfl⟩

/-- A tick writes those and `tick_count` (R171, R180). -/
theorem State.txTick_writes {s u : State} (hu : s.txTick = some u) : ∃ k p v l c,
    u = { s with
      tx := { s.tx with tail := k }, txState := p, txShift := v, txLine := l, tickCount := c } := by
  rcases s.txTick_cases with ⟨_, e⟩ | ⟨_, e⟩
  · cases e.symm.trans hu
    exact ⟨s.tx.tail, _, _, _, _, rfl⟩
  · obtain ⟨k, p, v, l, rfl⟩ := State.txArm_writes (e.symm.trans hu)
    exact ⟨k, p, v, l, _, rfl⟩

/-- A timer clock writes what a tick does and `bt_count`, and returns a result (R170). -/
theorem execBtClk_writes {s t : State} (ht : execBtClk s = .next t) : ∃ k p v l c n r,
    t = { s with
      tx := { s.tx with tail := k }, txState := p, txShift := v, txLine := l, tickCount := c
      btCount := n, returned := r } := by
  rcases execBtClk_next ht with ⟨_, rfl⟩ | ⟨_, _, rfl⟩ | ⟨_, _, u, hu, rfl⟩
  · exact ⟨s.tx.tail, _, _, _, _, s.btCount, _, rfl⟩
  · exact ⟨s.tx.tail, _, _, _, _, _, _, rfl⟩
  · obtain ⟨k, p, v, l, c, rfl⟩ := State.txTick_writes hu
    exact ⟨k, p, v, l, c, _, _, rfl⟩

/-! ### The sequences of `A_POLL` -/

theorem State.continuePoll_of_reading {s : State} {n : Half} {left : Nat}
    (hp : s.poll = .reading n left) : s.continuePoll = s.readPoll n left := by
  simp [State.continuePoll, hp]

theorem State.continuePoll_of_push {s : State} {ts : Word} {b : Byte} {rest : List Byte} {k : Nat}
    (hp : s.poll = .sending ts (b :: rest) k) : s.continuePoll = s.sendPush ts b rest k := by
  simp [State.continuePoll, hp]

theorem State.continuePoll_of_commit {s : State} {ts : Word} {k : Nat}
    (hp : s.poll = .sending ts [] k) : s.continuePoll = s.sendCommit ts k := by
  simp [State.continuePoll, hp]

/-- A poll writes the RX ring's tail, the sequence, the history and the result (R142). -/
theorem State.readPoll_writes (s : State) (n : Half) (left : Nat) : ∃ k p ev r,
    (k = s.rx.tail ∨ k = nextIndex s.cfg.rxCapLog2 s.rx.tail) ∧
    s.readPoll n left =
      { s with rx := { s.rx with tail := k }, poll := p, events := ev, returned := r } := by
  rcases s.readPoll_cases n left with ⟨_, e⟩ | ⟨_, _, e⟩ | ⟨_, _, e⟩ <;> rw [e]
  · exact ⟨_, _, _, _, .inr rfl, rfl⟩
  · exact ⟨_, _, _, _, .inl rfl, rfl⟩
  · exact ⟨_, _, _, _, .inl rfl, rfl⟩

/-- The check step of `ENC_SEND` writes the sequence and the result (R191). -/
theorem execEncSend_writes {s t : State} (ht : execEncSend s = .next t) : ∃ p r,
    t = { s with poll := p, returned := r } := by
  rcases execEncSend_next ht with ⟨_, rfl⟩ | ⟨_, _, rfl⟩ | ⟨_, _, rfl⟩
  · exact ⟨s.poll, _, rfl⟩
  · exact ⟨s.poll, _, rfl⟩
  · exact ⟨_, _, rfl⟩

end Sys2Proof.Machine
end

section
/-! CERTIFICATES. The statements of spec/10_state.md, with the ring's of spec/41_ring_buffer.md R115. -/

namespace Sys2Proof.BlockState

open Sys2Proof.Machine

/-- Settles O51, from the step lemma of the invariant. -/
theorem everyStepKeepsTheStateLegal : Obligations.EveryStepKeepsTheStateLegal := by
  intro s t h ht
  exact h.step ht

/-- Settles O50: the base case of O51. -/
theorem legalStateAtReset : Obligations.LegalStateAtReset := by
  intro c hc
  exact State.inv_resetWith hc

/-- Settles O49: the reset column is the reset state's definition. -/
theorem resetStateHasTheResetColumn : Obligations.ResetStateHasTheResetColumn := by
  intro c
  refine ⟨_, rfl, ?_⟩
  simp [State.resetWith, BitFrame.initial, Ring.powerOn]

/-- Settles O16, from what each primitive does to the list of the ring's bytes. -/
theorem ringIsABoundedQueue : Obligations.RingIsABoundedQueue := by
  intro q s hs
  have hok : (s.ring q).Ok (s.capLog2 q) := hs.ring q
  refine ⟨?_, fun b => ⟨_, rfl, ?_⟩, ⟨_, rfl, ?_⟩, ⟨_, rfl, ?_⟩⟩
  · rw [Ring.length_contents]
    exact hok.count_le
  · rw [State.ret_ring]
    exact State.contents_pushByte hok b
  · rcases State.popByte_contents hok with ⟨hnil, e⟩ | ⟨b, hcons, e⟩
    · rw [e, hnil]
      exact ⟨rfl, hnil⟩
    · rw [hcons, e]
      exact ⟨rfl, by rw [State.ret_ring]⟩
  · rw [State.ret_ring, State.resetRing, State.ring_setRing]
    exact Ring.contents_reset ..

/-- Settles O17: the slots from tail to head of a legal ring are written, the tail's among them. -/
theorem unwrittenStorageIsNeverReturned : Obligations.UnwrittenStorageIsNeverReturned := by
  intro q s hs hne
  have hbyte : (s.ring q).isEmpty (s.capLog2 q) = false := Ring.isEmpty_eq_false.mpr hne
  rcases s.popByte_cases q with ⟨hempty, _⟩ | ⟨_, e⟩
  · exact absurd (hempty.symm.trans hbyte) (by decide)
  · exact ⟨_, _, rfl, by rw [State.ret_returned, e], (hs.ring q).read?_tail hbyte q⟩

/-- Settles O53, operation by operation: the equation that says what it writes leaves the other
registers' clauses without a premise, and the operation is named in those it writes. -/
theorem eachRegisterHasItsWriters : Obligations.EachRegisterHasItsWriters := by
  intro i s t ht
  cases i with
  | rxEdge d =>
    rcases execRxEdge_next ht with ⟨_, rfl⟩ | ⟨_, u, hu, rfl⟩
    · simp
    · obtain ⟨f, r, ev, hr, rfl⟩ := State.edgeArm_writes hu
      simp [hr]
  | rxStart =>
    obtain ⟨_, rfl⟩ := execRxStart_next ht
    simp [State.resetRing]
  | rxStop => cases ht; simp
  | rxPoll =>
    obtain ⟨k, e⟩ := s.popByte_writes .rx
    cases ht
    simp [e]
  | rxRead n =>
    obtain ⟨k, p, ev, r, _, e⟩ := s.readPoll_writes n n.toNat
    cases ht
    simp [e]
  | txInit n =>
    obtain ⟨_, rfl⟩ := execTxInit_next ht
    simp [State.txQuiet, State.resetRing]
  | txTeardown => cases ht; simp [State.txQuiet, State.resetRing]
  | txEnqueue b =>
    obtain ⟨r, ev, hr, e⟩ := s.pushByte_writes .tx b
    cases ht
    simp [e, hr]
  | btClk =>
    obtain ⟨k, p, v, l, c, n, r, rfl⟩ := execBtClk_writes ht
    simp
  | txTick =>
    obtain ⟨u, hu, rfl⟩ := execTxTick_next ht
    obtain ⟨k, p, v, l, c, rfl⟩ := State.txTick_writes hu
    simp
  | encReport l r m dx dy wheel => cases ht; simp
  | encSend =>
    obtain ⟨p, r, rfl⟩ := execEncSend_writes ht
    simp
  | encReset => cases ht; simp
  | rbReset q => cases ht; cases q <;> simp [State.resetRing]
  | rbPush q b =>
    obtain ⟨r, ev, hr, e⟩ := s.pushByte_writes q b
    cases ht
    cases q <;> simp [e, hr]
  | rbPop q =>
    obtain ⟨k, e⟩ := s.popByte_writes q
    cases ht
    cases q <;> simp [e]
  | rbCount q => cases ht; simp
  | reset => cases ht; simp [State.resetBlock, Ring.cleared]

/-- Settles O54, from the equation of each kind of step; the sums are among what each keeps. -/
theorem sequenceStepsHaveTheirWriters : Obligations.SequenceStepsHaveTheirWriters := by
  intro s
  refine ⟨fun n left hp => ?_, fun ts b rest k hp hne => ?_, fun ts b rest k hp hfull => ?_,
    fun ts k hp => ?_⟩
  · obtain ⟨k, p, ev, r, hk, e⟩ := s.readPoll_writes n left
    rw [State.continuePoll_of_reading hp, e]
    exact ⟨hk, rfl⟩
  · have hstep := State.continuePoll_of_push hp
    rcases s.sendPush_cases ts b rest k with ⟨_, e⟩ | ⟨hfull, _⟩
    · exact ⟨_, hstep.trans e, rfl, rfl, memRead_write_same .., fun j hj =>
        Memory.read?_write_other _ hj _, rfl, rfl, rfl, rfl⟩
    · exact absurd (Ring.isFull_iff.mp hfull) hne
  · have hstep := State.continuePoll_of_push hp
    rcases s.sendPush_cases ts b rest k with ⟨hroom, _⟩ | ⟨_, e⟩
    · exact absurd hfull (Ring.isFull_eq_false.mp hroom)
    · exact ⟨_, hstep.trans e, rfl, rfl, rfl, satInc16_toNat _, rfl⟩
  · rw [State.continuePoll_of_commit hp]
    rfl

end Sys2Proof.BlockState
end

section
/-! SUPPORT. Operand fields of a 32-bit word (spec/30_encoding.md R94, R95): what a field reads from a word
put together from its operands, and the bits of a word that its fields hold. -/

namespace Sys2Proof

/-! ### Reading an operand out of a word -/

/-- Bits of a word on which `m` is all ones are bits of `w & m` (R97). -/
theorem Word.extractLsb'_and_of_allOnes {m : Word} {a n : Nat}
    (hm : m.extractLsb' a n = BitVec.allOnes n) (w : Word) :
    (w &&& m).extractLsb' a n = w.extractLsb' a n := by
  rw [BitVec.extractLsb'_and, hm, BitVec.and_allOnes]

/-- An operand in the low bits is not seen through a mask that is 0 there. -/
theorem Word.or_setWidth_and {k : Nat} (p m : Word) (hm : m.setWidth k = 0) (v : BitVec k) :
    (p ||| v.setWidth 32) &&& m = p &&& m := by
  refine BitVec.eq_of_getLsbD_eq fun i hi => ?_
  have hbit : v.getLsbD i = true → m.getLsbD i = false := fun hv => by
    have hik : i < k := BitVec.lt_of_getLsbD hv
    have hmi := congrArg (fun x => x.getLsbD i) hm
    simpa [hik] using hmi
  cases hv : v.getLsbD i <;> simp_all

/-- An operand in the low bits, with nothing else there, is what the low bits are. -/
theorem Word.extractLsb'_or_setWidth {k : Nat} {p : Word} (hk : k ≤ 32) (hp : p.extractLsb' 0 k = 0)
    (v : BitVec k) : (p ||| v.setWidth 32).extractLsb' 0 k = v := by
  rw [BitVec.extractLsb'_or, hp]
  refine BitVec.eq_of_getLsbD_eq fun i hi => ?_
  have hi32 : i < 32 := by omega
  simp [hi, hi32]

theorem getLsbD_bitAt (b : Bool) {n : Nat} (hn : n < 32) (i : Nat) :
    (bitAt b n).getLsbD i = (b && decide (i = n)) := by
  cases b with
  | false => simp [bitAt]
  | true =>
    have : (1#32 <<< n) = BitVec.twoPow 32 n := (BitVec.twoPow_eq 32 n).symm
    simp [bitAt, this, hn, eq_comm]

/-- One operand bit in its place, written as the one-bit field moved there (R95). -/
theorem bitAt_eq_ofBool_shiftLeft (b : Bool) (n : Nat) :
    bitAt b n = (BitVec.ofBool b).setWidth 32 <<< n := by
  cases b <;> simp [bitAt]

/-! ### The bits a field holds -/

theorem Word.bitAt_fieldD (w : Word) : bitAt (Word.fieldD w) 0 = w &&& 0x00000001 := by
  refine BitVec.eq_of_getLsbD_eq fun i hi => ?_
  rw [getLsbD_bitAt _ (by decide)]
  cases i <;> simp [Word.fieldD]

theorem Word.setWidth_extractLsb'_low {k : Nat} (w m : Word) (hm : m.toNat = 2 ^ k - 1) :
    (w.extractLsb' 0 k).setWidth 32 = w &&& m := by
  apply BitVec.eq_of_toNat_eq
  have hle : w.toNat % 2 ^ k ≤ w.toNat := Nat.mod_le _ _
  have hlt : w.toNat % 2 ^ k < 2 ^ 32 := by omega
  simpa [hm, Nat.and_two_pow_sub_one_eq_mod] using hlt

theorem Word.setWidth_fieldB (w : Word) : (Word.fieldB w).setWidth 32 = w &&& 0x000000FF :=
  Word.setWidth_extractLsb'_low (k := 8) w _ (by decide)

theorem Word.setWidth_fieldN (w : Word) : (Word.fieldN w).setWidth 32 = w &&& 0x0000FFFF :=
  Word.setWidth_extractLsb'_low (k := 16) w _ (by decide)

theorem Word.bits_fieldQ (w : Word) : (Word.fieldQ w).bits = w &&& 0x00000100 := by
  have hmask : (0x00000100 : Word) = BitVec.twoPow 32 8 := rfl
  rw [hmask, BitVec.and_twoPow]
  unfold Word.fieldQ
  split <;> rfl

/-! ### The word of `ENC_REPORT` -/

/-- Format R bit by bit (R95): `op` is the one bit 31, and a byte operand has no bit outside its eight
places, so no two operands meet. -/
theorem getLsbD_encode_encReport (l r m : Bool) (dx dy wheel : Byte) (i : Nat) :
    (encode (.encReport l r m dx dy wheel)).getLsbD i =
      (decide (i = 31) || (m && decide (i = 26)) || (r && decide (i = 25)) || (l && decide (i = 24))
        || (decide (16 ≤ i) && dx.getLsbD (i - 16)) || (decide (8 ≤ i) && dy.getLsbD (i - 8))
        || wheel.getLsbD i) := by
  have hop : (0x80000000 : Word).getLsbD i = decide (i = 31) := getLsbD_bitAt true (n := 31) (by decide) i
  simp only [encode, BitVec.getLsbD_or, getLsbD_bitAt, Nat.reduceLT, BitVec.getLsbD_shiftLeft,
    BitVec.getLsbD_setWidth]
  grind

/-- The `op` of `ENC_REPORT` is all that its mask looks at (R97). -/
theorem encode_encReport_and (l r m : Bool) (dx dy wheel : Byte) :
    encode (.encReport l r m dx dy wheel) &&& 0xF8000000 = 0x80000000 := by
  have hmask : ∀ i < 32, (0xF8000000 : Word).getLsbD i = decide (27 ≤ i) := by decide
  have hop : ∀ i < 32, (0x80000000 : Word).getLsbD i = decide (i = 31) := by decide
  refine BitVec.eq_of_getLsbD_eq fun i hi => ?_
  rw [BitVec.getLsbD_and, getLsbD_encode_encReport, hmask i hi, hop i hi]
  grind

/-- The operands of `ENC_REPORT` are read back from its word (R95). -/
theorem Word.fieldReport_encode (l r m : Bool) (dx dy wheel : Byte) :
    Word.fieldReport (encode (.encReport l r m dx dy wheel)) = .encReport l r m dx dy wheel := by
  generalize hw : encode (.encReport l r m dx dy wheel) = w
  have hbytes : w.extractLsb' 16 8 = dx ∧ w.extractLsb' 8 8 = dy ∧ w.extractLsb' 0 8 = wheel := by
    refine ⟨?_, ?_, ?_⟩ <;> refine BitVec.eq_of_getLsbD_eq fun i hi => ?_ <;>
      rw [BitVec.getLsbD_extractLsb', ← hw, getLsbD_encode_encReport] <;> grind
  have hbuttons : w.getLsbD 24 = l ∧ w.getLsbD 25 = r ∧ w.getLsbD 26 = m := by
    simp only [← hw, getLsbD_encode_encReport]
    simp
  obtain ⟨hdx, hdy, hwheel⟩ := hbytes
  obtain ⟨hl, hr, hm⟩ := hbuttons
  rw [Word.fieldReport, hdx, hdy, hwheel, hl, hr, hm]

/-- The word of the report read from `w` has `w`'s bits below `op` (R95). -/
theorem Word.encode_fieldReport (w : Word) :
    encode (Word.fieldReport w) = 0x80000000 ||| (w &&& 0x07FFFFFF) := by
  have hmask : ∀ i < 32, (0x07FFFFFF : Word).getLsbD i = decide (i ≤ 26) := by decide
  have hop : ∀ i < 32, (0x80000000 : Word).getLsbD i = decide (i = 31) := by decide
  refine BitVec.eq_of_getLsbD_eq fun i hi => ?_
  rw [Word.fieldReport, getLsbD_encode_encReport, BitVec.getLsbD_or, BitVec.getLsbD_and, hmask i hi,
    hop i hi]
  simp only [BitVec.getLsbD_extractLsb']
  grind

end Sys2Proof
end

section
/-! SUPPORT. The opcode map (spec/30_encoding.md R97, R103): its rows have different `op` fields, so at
most one matches a word; each operation has a row, and row by row the decoder and the encoder agree. -/

namespace Sys2Proof.Machine

/-! ### The map as the spec prints it -/

/-- The decoder's rows are the spec's, in its order (R97). -/
theorem opTable_map_eq_opcodeMap : opTable.map (fun r => (r.pattern, r.mask)) = opcodeMap := rfl

/-- A field that a row's mask looks at in full is the row's in every word it matches (R97). -/
theorem field_eq_of_match {w : Word} {r : Word × Word} (h : w &&& r.2 = r.1) {a n : Nat}
    (hm : r.2.extractLsb' a n = BitVec.allOnes n) : w.extractLsb' a n = r.1.extractLsb' a n := by
  rw [← h, Word.extractLsb'_and_of_allOnes hm]

/-- Every row looks at the whole `op` field (R97). -/
theorem op_eq_of_match {w : Word} {r : Word × Word} (hr : r ∈ opcodeMap) (h : w &&& r.2 = r.1) :
    w.extractLsb' 27 5 = r.1.extractLsb' 27 5 := by
  have hmask : ∀ r ∈ opcodeMap, r.2.extractLsb' 27 5 = BitVec.allOnes 5 := by simp [opcodeMap]
  exact field_eq_of_match h (hmask r hr)

/-- No two rows have one `op` field (R97). -/
theorem nodup_map_op : (opcodeMap.map fun r => r.1.extractLsb' 27 5).Nodup := by
  have hops : (opcodeMap.map fun r => r.1.extractLsb' 27 5) = [0x01, 0x02, 0x03, 0x04, 0x05, 0x08, 0x09,
      0x0A, 0x0B, 0x0C, 0x10, 0x11, 0x12, 0x18, 0x19, 0x1A, 0x1B, 0x1F] := rfl
  rw [hops]
  decide

/-- No word matches two rows of the map (R97). -/
theorem eq_of_match_of_match {w : Word} {r r' : Word × Word} (hr : r ∈ opcodeMap) (hr' : r' ∈ opcodeMap)
    (h : w &&& r.2 = r.1) (h' : w &&& r'.2 = r'.1) : r = r' :=
  List.inj_on_of_nodup_map nodup_map_op hr hr' ((op_eq_of_match hr h).symm.trans (op_eq_of_match hr' h'))

/-! ### What the decoder answers -/

theorem OpRow.hits_iff {r : OpRow} {w : Word} : r.hits w = true ↔ w &&& r.mask = r.pattern := by
  simp [OpRow.hits]

theorem mem_opcodeMap_of_mem_opTable {r : OpRow} (hr : r ∈ opTable) : (r.pattern, r.mask) ∈ opcodeMap :=
  opTable_map_eq_opcodeMap ▸ List.mem_map_of_mem hr

/-- No two rows of the decoder's table have one match and one mask, so its rows are as distinct as the
map's. -/
theorem OpRow.eq_of_hits_of_hits {w : Word} {r r' : OpRow} (hr : r ∈ opTable) (hr' : r' ∈ opTable)
    (h : r.hits w = true) (h' : r'.hits w = true) : r = r' := by
  have hnodup : (opTable.map fun r => (r.pattern, r.mask)).Nodup := by
    rw [opTable_map_eq_opcodeMap]
    exact nodup_map_op.of_map _
  exact List.inj_on_of_nodup_map hnodup hr hr' (eq_of_match_of_match (mem_opcodeMap_of_mem_opTable hr)
    (mem_opcodeMap_of_mem_opTable hr') (OpRow.hits_iff.mp h) (OpRow.hits_iff.mp h'))

/-- A word is the operation that its row builds (R103). -/
theorem decodeWord_eq_some_iff {w : Word} {i : Instr} :
    decodeWord w = some i ↔ ∃ r ∈ opTable, r.hits w = true ∧ r.build w = i := by
  unfold decodeWord
  constructor
  · intro h
    obtain ⟨r, hfind, hbuild⟩ := Option.map_eq_some_iff.mp h
    exact ⟨r, List.mem_of_find?_eq_some hfind, List.find?_some (p := fun r : OpRow => r.hits w) hfind,
      hbuild⟩
  · rintro ⟨r, hr, hhits, rfl⟩
    obtain ⟨r', hfind⟩ := Option.isSome_iff_exists.mp
      (List.find?_isSome (p := fun r : OpRow => r.hits w).mpr ⟨r, hr, hhits⟩)
    have hhits' : r'.hits w = true := List.find?_some (p := fun r : OpRow => r.hits w) hfind
    rw [hfind, OpRow.eq_of_hits_of_hits (List.mem_of_find?_eq_some hfind) hr hhits' hhits]
    rfl

/-- A word is no operation exactly when no row of the map matches it (R98). -/
theorem decodeWord_eq_none_iff {w : Word} :
    decodeWord w = none ↔ ∀ r ∈ opcodeMap, w &&& r.2 ≠ r.1 := by
  simp [decodeWord, ← opTable_map_eq_opcodeMap, OpRow.hits]

/-- A word whose `op` is no row's is no operation (R98). -/
theorem decodeWord_eq_none_of_unassigned {ops : List (BitVec 5)}
    (hrows : (opcodeMap.all fun r => decide (r.1.extractLsb' 27 5 ∉ ops)) = true)
    {w : Word} (hop : w.extractLsb' 27 5 ∈ ops) : decodeWord w = none :=
  decodeWord_eq_none_iff.mpr fun r hr h =>
    of_decide_eq_true (List.all_eq_true.mp hrows r hr) (op_eq_of_match hr h ▸ hop)

/-- Of the words whose `op` is among `ops`, those decode to nothing that have a nonzero bit in a field at
which every row with such an `op` demands 0 (R98). -/
theorem decodeWord_eq_none_of_reserved {ops : List (BitVec 5)} {a n : Nat}
    (hrows : (opcodeMap.all fun r => decide (r.1.extractLsb' 27 5 ∈ ops →
      r.2.extractLsb' a n = BitVec.allOnes n ∧ r.1.extractLsb' a n = 0)) = true)
    {w : Word} (hop : w.extractLsb' 27 5 ∈ ops) (hne : w.extractLsb' a n ≠ 0) : decodeWord w = none := by
  refine decodeWord_eq_none_iff.mpr fun r hr h => hne ?_
  obtain ⟨hmask, hzero⟩ := of_decide_eq_true (List.all_eq_true.mp hrows r hr) (op_eq_of_match hr h ▸ hop)
  exact (field_eq_of_match h hmask).trans hzero

/-! ### The row of an operation -/

/-- The place in the opcode map of the row of an operation (R97). -/
def rowIndex (i : Instr) : Fin 18 :=
  match i with
  | .rxEdge _ => 0
  | .rxStart => 1
  | .rxStop => 2
  | .rxPoll => 3
  | .rxRead _ => 4
  | .txInit _ => 5
  | .txTeardown => 6
  | .txEnqueue _ => 7
  | .btClk => 8
  | .txTick => 9
  | .encReport .. => 10
  | .encSend => 11
  | .encReset => 12
  | .rbReset _ => 13
  | .rbPush .. => 14
  | .rbPop _ => 15
  | .rbCount _ => 16
  | .reset => 17

/-- The row of an operation in the opcode map (R97). -/
def rowOf (i : Instr) : OpRow := opTable.get (Fin.cast rfl (rowIndex i))

theorem rowOf_mem (i : Instr) : rowOf i ∈ opTable := List.get_mem ..

/-- The word of an operation matches the operation's row. -/
theorem rowOf_hits_encode (i : Instr) : (rowOf i).hits (encode i) = true := by
  rw [OpRow.hits_iff]
  cases i with
  | rxEdge d => cases d <;> rfl
  | rxRead n => exact Word.or_setWidth_and 0x28000000 0xFFFF0000 rfl n
  | txInit n => exact Word.or_setWidth_and 0x40000000 0xFFFF0000 rfl n
  | txEnqueue b => exact Word.or_setWidth_and 0x50000000 0xFFFFFF00 rfl b
  | encReport l r m dx dy wheel => exact encode_encReport_and l r m dx dy wheel
  | rbPush q b => cases q <;> exact Word.or_setWidth_and _ 0xFFFFFE00 rfl b
  | rbReset q | rbPop q | rbCount q => cases q <;> rfl
  | rxStart | rxStop | rxPoll | txTeardown | btClk | txTick | encSend | encReset | reset => rfl

/-- From the word of an operation, the operation's row reads its operands back. -/
theorem rowOf_build_encode (i : Instr) : (rowOf i).build (encode i) = i := by
  cases i with
  | rxEdge d => cases d <;> rfl
  | rxRead n => exact congrArg Instr.rxRead (Word.extractLsb'_or_setWidth (by decide) rfl n)
  | txInit n => exact congrArg Instr.txInit (Word.extractLsb'_or_setWidth (by decide) rfl n)
  | txEnqueue b => exact congrArg Instr.txEnqueue (Word.extractLsb'_or_setWidth (by decide) rfl b)
  | encReport l r m dx dy wheel => exact Word.fieldReport_encode l r m dx dy wheel
  | rbPush q b =>
    have hq : Word.fieldQ (encode (.rbPush q b)) = q := by
      cases q <;> simp [Word.fieldQ, encode, RingId.bits]
    have hbyte : Word.fieldB (encode (.rbPush q b)) = b := by
      cases q <;> exact Word.extractLsb'_or_setWidth (by decide) rfl b
    exact congrArg₂ Instr.rbPush hq hbyte
  | rbReset q | rbPop q | rbCount q => cases q <;> rfl
  | rxStart | rxStop | rxPoll | txTeardown | btClk | txTick | encSend | encReset | reset => rfl

/-- Decoding is a left inverse of encoding (R95, R97). -/
theorem decodeWord_encode (i : Instr) : decodeWord (encode i) = some i :=
  decodeWord_eq_some_iff.mpr ⟨rowOf i, rowOf_mem i, rowOf_hits_encode i, rowOf_build_encode i⟩

/-- The word of the operation that a row builds from `w` is the row's match with the bits of `w` that
its mask does not look at (R95, R97). -/
theorem encode_build {r : OpRow} (hr : r ∈ opTable) (w : Word) :
    encode (r.build w) = r.pattern ||| (w &&& ~~~r.mask) := by
  have hnone : ∀ p : Word, p = p ||| (w &&& ~~~0xFFFFFFFF) := fun p => by simp
  have hpush : 0xC8000000 ||| (Word.fieldQ w).bits ||| (Word.fieldB w).setWidth 32 =
      0xC8000000 ||| (w &&& 0x000001FF) := by
    rw [w.bits_fieldQ, w.setWidth_fieldB, BitVec.or_assoc, ← BitVec.and_or_distrib_left]
    rfl
  revert r
  simp only [opTable, opRowsRx, opRowsTx, opRowsEnc, opRowsRing, List.cons_append, List.nil_append,
    List.forall_mem_cons]
  exact ⟨congrArg (0x08000000 ||| ·) w.bitAt_fieldD, hnone _, hnone _, hnone _,
    congrArg (0x28000000 ||| ·) w.setWidth_fieldN, congrArg (0x40000000 ||| ·) w.setWidth_fieldN, hnone _,
    congrArg (0x50000000 ||| ·) w.setWidth_fieldB, hnone _, hnone _, w.encode_fieldReport, hnone _, hnone _,
    congrArg (0xC0000000 ||| ·) w.bits_fieldQ, hpush, congrArg (0xD0000000 ||| ·) w.bits_fieldQ,
    congrArg (0xD8000000 ||| ·) w.bits_fieldQ, hnone _, by simp⟩

/-- Encoding is a left inverse of decoding: no bit of a word is ignored (R95, R97, R98). -/
theorem encode_of_decodeWord {w : Word} {i : Instr} (h : decodeWord w = some i) : encode i = w := by
  obtain ⟨r, hr, hhits, rfl⟩ := decodeWord_eq_some_iff.mp h
  calc encode (r.build w) = r.pattern ||| (w &&& ~~~r.mask) := encode_build hr w
    _ = (w &&& r.mask) ||| (w &&& ~~~r.mask) := by rw [OpRow.hits_iff.mp hhits]
    _ = w := by rw [← BitVec.and_or_distrib_left, BitVec.or_not_self, BitVec.and_allOnes]

end Sys2Proof.Machine
end

section
/-! SUPPORT. The agent check by the "issued by" column (spec/30_encoding.md R97, R99, R100), the step it
refuses (spec/60_exceptions.md R229), and a source's sequence after some issues (R100). -/

namespace Sys2Proof.Machine

/-! ### The agent check -/

theorem issueCheck_of_only {lvl : TimerLevel} {i : Instr} {b : Issuer} (h : issueRule lvl i = .only b)
    (a : Issuer) : issueCheck lvl a i = if a = b then none else some .wrongAgent := by
  simp [issueCheck, h]

theorem issueCheck_of_internalOnly {lvl : TimerLevel} {i : Instr} (h : issueRule lvl i = .internalOnly)
    (a : Issuer) : issueCheck lvl a i = if a = .internal then none else some .internalOperation := by
  simp [issueCheck, h]

theorem issueCheck_of_otherLevel {lvl : TimerLevel} {i : Instr} (h : issueRule lvl i = .otherLevel)
    (a : Issuer) : issueCheck lvl a i = some .internalOperation := by
  simp [issueCheck, h]

/-- One agent's operation passes from that agent alone (R100). -/
theorem issueCheck_eq_none_of_only {lvl : TimerLevel} {i : Instr} {b : Issuer}
    (h : issueRule lvl i = .only b) (a : Issuer) : issueCheck lvl a i = none ↔ a = b := by
  simp [issueCheck_of_only h]

/-- An internal operation passes from the model's internal source alone (R99, log 6). -/
theorem issueCheck_eq_none_of_internalOnly {lvl : TimerLevel} {i : Instr}
    (h : issueRule lvl i = .internalOnly) (a : Issuer) : issueCheck lvl a i = none ↔ a = .internal := by
  simp [issueCheck_of_internalOnly h]

/-- The word and the port of an operation that is one agent's at both timing levels (R97). -/
theorem issuedAs_of_only {i : Instr} {w : Word} {a : Issuer} (hw : encode i = w)
    (h : ∀ lvl, issueRule lvl i = .only a) : IssuedAs i w a :=
  ⟨hw, fun lvl b => issueCheck_eq_none_of_only (h lvl) b⟩

/-- The word of an operation that is internal at both timing levels, and its source (R99, log 6). -/
theorem issuedAs_of_internalOnly {i : Instr} {w : Word} (hw : encode i = w)
    (h : ∀ lvl, issueRule lvl i = .internalOnly) : IssuedAs i w .internal :=
  ⟨hw, fun lvl b => issueCheck_eq_none_of_internalOnly (h lvl) b⟩

/-! ### The refused steps -/

/-- A word that is no operation is refused by the decoder, whoever issues it (R98, R229). -/
theorem step_of_reserved {s : State} {w : Word} (hw : s.wordFor s.feed.nextIssuer = some w)
    (hd : decodeWord w = none) : step s = .refused .reservedEncoding := by
  rw [step_of_word rfl hw, issueWord, hd]

/-- An operation's own word, refused by the agent check (R229). -/
theorem step_of_refused {s : State} {a : Issuer} {i : Instr} {r : Refusal} (ha : s.feed.nextIssuer = a)
    (hw : s.wordFor a = some (encode i)) (hc : issueCheck s.cfg.timerLevel a i = some r) :
    step s = .refused r := by
  simp only [step_of_word ha hw, issueWord, decodeWord_encode, hc]

theorem step_wrongAgent {s : State} {a b : Issuer} {i : Instr} (ha : s.feed.nextIssuer = a)
    (hw : s.wordFor a = some (encode i)) (hne : a ≠ b) (hr : issueRule s.cfg.timerLevel i = .only b) :
    step s = .refused .wrongAgent :=
  step_of_refused ha hw ((issueCheck_of_only hr a).trans (if_neg hne))

theorem step_internalOperation {s : State} {a : Issuer} {i : Instr} (ha : s.feed.nextIssuer = a)
    (hw : s.wordFor a = some (encode i)) (hne : a ≠ .internal)
    (hr : issueRule s.cfg.timerLevel i = .internalOnly) : step s = .refused .internalOperation :=
  step_of_refused ha hw ((issueCheck_of_internalOnly hr a).trans (if_neg hne))

theorem step_otherLevel {s : State} {a : Issuer} {i : Instr} (ha : s.feed.nextIssuer = a)
    (hw : s.wordFor a = some (encode i)) (hr : issueRule s.cfg.timerLevel i = .otherLevel) :
    step s = .refused .internalOperation :=
  step_of_refused ha hw (issueCheck_of_otherLevel hr a)

/-! ### A sequence after some issues -/

/-- Issues of one source take words from that source's sequence and from no other (R100). -/
theorem program_issueN (a b : Issuer) (k : Nat) (f : Feed) :
    (issueN a k f).program b = if b = a then Program.tail^[k] (f.program a) else f.program b := by
  induction k generalizing f with
  | zero => split <;> simp_all [issueN]
  | succ k ih =>
    rw [issueN, ih, f.program_issue, f.program_issue, if_pos rfl, Function.iterate_succ_apply]
    split <;> rfl

/-- The listed words leave a sequence one by one (R100). -/
theorem Program.iterate_tail_listed (ws : List Word) (r : Rest) {k : Nat} (hk : k ≤ ws.length) :
    Program.tail^[k] { words := ws, rest := r } = { words := ws.drop k, rest := r } := by
  induction k generalizing ws with
  | zero => rfl
  | succ k ih =>
    cases ws with
    | nil => simp at hk
    | cons w ws => exact ih ws (Nat.le_of_succ_le_succ hk)

/-- Past the listed words only the rest goes on (R100). -/
theorem Program.iterate_tail_of_length_le (ws : List Word) (r : Rest) {k : Nat} (hk : ws.length ≤ k) :
    Program.tail^[k] { words := ws, rest := r } =
      Program.tail^[k - ws.length] { words := [], rest := r } := by
  obtain ⟨j, rfl⟩ := Nat.exists_eq_add_of_le' hk
  rw [Function.iterate_add_apply, Program.iterate_tail_listed ws r le_rfl, List.drop_length,
    Nat.add_sub_cancel]

/-- The words of an infinite rest come one after another (R100). -/
theorem Program.iterate_tail_endless (n k : Nat) :
    Program.tail^[k] { words := [], rest := .endless n } = { words := [], rest := .endless (n + k) } := by
  induction k with
  | zero => rfl
  | succ k ih => rw [Function.iterate_succ_apply', ih]; rfl

theorem Program.head_iterate_tail_of_lt (a : Issuer) {p : Program} {k : Nat} (hk : k < p.words.length) :
    (Program.tail^[k] p).head a = p.words[k]? := by
  obtain ⟨ws, r⟩ := p
  rw [Program.iterate_tail_listed ws r (Nat.le_of_lt hk), List.drop_eq_getElem_cons hk,
    Program.head_listed, List.getElem?_eq_getElem hk]

theorem Program.head_iterate_tail_of_ends (a : Issuer) {p : Program} {k : Nat}
    (hk : p.words.length ≤ k) (hr : p.rest = .ends) : (Program.tail^[k] p).head a = none := by
  obtain ⟨ws, r⟩ := p
  cases hr
  rw [Program.iterate_tail_of_length_le ws _ hk, Function.iterate_fixed Program.tail_ended,
    Program.head_ended]

theorem Program.head_iterate_tail_of_endless (a : Issuer) {p : Program} {k n : Nat}
    (hk : p.words.length ≤ k) (hr : p.rest = .endless n) :
    (Program.tail^[k] p).head a = some (Config.endlessWord a (n + (k - p.words.length))) := by
  obtain ⟨ws, r⟩ := p
  cases hr
  rw [Program.iterate_tail_of_length_le ws _ hk, Program.iterate_tail_endless, Program.head_endless]

end Sys2Proof.Machine
end

section
/-! CERTIFICATES. The statements of spec/30_encoding.md about words, ports and sequences. -/

namespace Sys2Proof.Encoding

open Sys2Proof.Machine

/-- Settles O1: the operation's row matches its word and reads the operands back. -/
theorem decodeOfEncode : Obligations.DecodeOfEncode := by
  intro i
  exact decodeWord_encode i

/-- Settles O2: the word is its row's match with the bits the mask leaves open, and so is the word of the
operation which the row builds. -/
theorem encodeOfDecode : Obligations.EncodeOfDecode := by
  intro w i h
  exact encode_of_decodeWord h

/-- Settles O3, clause by clause: what the rows with the named `op` fields demand of the named field. The
unassigned ones are no row's. -/
theorem unassignedAndReservedWordsDecodeToNothing :
    Obligations.UnassignedAndReservedWordsDecodeToNothing := by
  intro w
  refine ⟨fun hop => ?_, fun hop hne => ?_, fun hop hne => ?_, fun hop hne => ?_, fun hop hne => ?_,
    fun hop hne => ?_, fun hop hne => ?_⟩
  · exact decodeWord_eq_none_of_unassigned (by decide) hop
  · exact decodeWord_eq_none_of_reserved (by decide) (List.mem_singleton.mpr hop) hne
  · exact decodeWord_eq_none_of_reserved (by decide) hop hne
  · exact decodeWord_eq_none_of_reserved (by decide) (List.mem_singleton.mpr hop) hne
  · exact decodeWord_eq_none_of_reserved (by decide) hop hne
  · rcases hne with hne | hne
    · exact decodeWord_eq_none_of_reserved (by decide) hop hne
    · exact decodeWord_eq_none_of_reserved (by decide) hop hne
  · exact decodeWord_eq_none_of_reserved (by decide) (List.mem_singleton.mpr hop) hne

/-- Settles O4: the decoder's rows are the map's, and their `op` fields differ. -/
theorem exactlyOneMapRowDecides : Obligations.ExactlyOneMapRowDecides := by
  intro w
  refine ⟨?_, fun r hr r' hr' h h' => eq_of_match_of_match hr hr' h h'⟩
  rw [Option.isSome_iff_ne_none, ne_eq, decodeWord_eq_none_iff]
  push Not
  rfl

/-- Settles O8, clause by clause: what the "issued by" column says of the operations it names. -/
theorem stepRefusesForeignOperations : Obligations.StepRefusesForeignOperations := by
  intro s a i ha hw
  refine ⟨fun hne hi => ?_, fun hlvl hne hi => ?_, fun hlvl hi => ?_, fun hlvl hne hi => ?_,
    fun hlvl hne hi => ?_, fun hne hi => ?_, fun hne hi => ?_, fun hne hi => ?_⟩
  · refine step_internalOperation ha hw hne ?_
    rcases hi with ⟨q, rfl⟩ | ⟨q, b, rfl⟩ | ⟨q, rfl⟩ | ⟨q, rfl⟩ <;> rfl
  · exact step_internalOperation ha hw hne (by rw [hlvl, hi]; rfl)
  · exact step_otherLevel ha hw (by rw [hlvl, hi]; rfl)
  · exact step_wrongAgent ha hw hne (by rw [hlvl, hi]; rfl)
  · exact step_wrongAgent ha hw hne (by rw [hlvl, hi]; rfl)
  · obtain ⟨d, rfl⟩ := hi
    exact step_wrongAgent ha hw hne rfl
  · exact step_wrongAgent ha hw hne (by rw [hi]; rfl)
  · refine step_wrongAgent ha hw hne ?_
    rcases hi with rfl | rfl | rfl | ⟨n, rfl⟩ | ⟨n, rfl⟩ | rfl | ⟨b, rfl⟩ | ⟨l, r, m, dx, dy, wheel, rfl⟩ |
      rfl | rfl <;> rfl

/-- Settles O60: the issues shorten the source's sequence alone, first its listed words, then its rest. -/
theorem programsAreIssuedInOrder : Obligations.ProgramsAreIssuedInOrder := by
  intro a f k
  have hnext : (issueN a k f).nextWord a = (Program.tail^[k] (f.program a)).head a := by
    rw [Feed.nextWord, program_issueN, if_pos rfl]
  have hother : ∀ b, b ≠ a → (issueN a k f).program b = f.program b := fun b hb => by
    rw [program_issueN, if_neg hb]
  rw [hnext]
  exact ⟨Program.head_iterate_tail_of_lt a,
    fun hk => ⟨Program.head_iterate_tail_of_ends a hk, fun _ => Program.head_iterate_tail_of_endless a hk⟩,
    hother⟩

/-- Settles O5: a sample that is an operation's word decodes to it, and the others match no row. -/
theorem sampleWordsDecode : Obligations.SampleWordsDecode := by
  have hleft : encode (.encReport true false true 10 (-5) 0) = 0x850AFB00 := by decide
  have hwheel : encode (.encReport false false true 3 0 (-1)) = 0x840300FF := by decide
  exact ⟨hleft ▸ decodeWord_encode _, hwheel ▸ decodeWord_encode _, decodeWord_encode (.rxEdge true),
    decodeWord_encode (.txInit 207), decodeWord_encode (.rbPush .tx 0x55), decodeWord_encode (.rxRead 2),
    decodeWord_encode .btClk, decodeWord_encode .txTick, decodeWord_encode .encSend,
    decodeWord_encode (.rbPop .rx), by decide, by decide, by decide⟩

/-- Settles O7: such a word does not decode, and decoding comes first. -/
theorem stepRefusesReservedWords : Obligations.StepRefusesReservedWords := by
  intro s w hw hrows
  exact step_of_reserved hw (decodeWord_eq_none_iff.mpr hrows)

/-- Settles O59: the word by the encoder's equation, the port by the "issued by" column. -/
theorem everyOperationHasItsWordAndPort : Obligations.EveryOperationHasItsWordAndPort := by
  refine ⟨fun d => issuedAs_of_only ?_ fun _ => rfl, issuedAs_of_only rfl fun _ => rfl,
    issuedAs_of_only rfl fun _ => rfl, issuedAs_of_only rfl fun _ => rfl,
    fun n => issuedAs_of_only rfl fun _ => rfl, fun n => issuedAs_of_only rfl fun _ => rfl,
    issuedAs_of_only rfl fun _ => rfl, fun b => issuedAs_of_only rfl fun _ => rfl,
    ⟨rfl, issueCheck_eq_none_of_only rfl, issueCheck_of_otherLevel rfl⟩,
    ⟨rfl, issueCheck_eq_none_of_only rfl, issueCheck_eq_none_of_internalOnly rfl⟩,
    fun l r m dx dy wheel => issuedAs_of_only ?_ fun _ => rfl, issuedAs_of_only rfl fun _ => rfl,
    issuedAs_of_only rfl fun _ => rfl, fun q => issuedAs_of_internalOnly ?_ fun _ => rfl,
    fun q b => issuedAs_of_internalOnly ?_ fun _ => rfl, fun q => issuedAs_of_internalOnly ?_ fun _ => rfl,
    fun q => issuedAs_of_internalOnly ?_ fun _ => rfl, issuedAs_of_only rfl fun _ => rfl⟩
  · cases d <;> rfl
  · simp only [encode, bitAt_eq_ofBool_shiftLeft]
  all_goals cases q <;> rfl

end Sys2Proof.Encoding
end

section
/-! SUPPORT. The receiver edge by edge (spec/42_ps2_receiver.md R130 to R138): one equation for each kind
of armed edge, and a whole device-to-host frame up to its stop edge (spec/30_encoding.md R80, R81). -/

namespace Sys2Proof.Machine

/-! ### Edge after edge -/

theorem runEdges_cons {d : Bool} {s t : State} (h : exec (.rxEdge d) s = .next t) (ds : List Bool) :
    runEdges (d :: ds) s = runEdges ds t := by
  simp only [runEdges, h]

theorem runEdges_singleton (d : Bool) (s : State) : runEdges [d] s = exec (.rxEdge d) s := by
  unfold runEdges
  cases exec (.rxEdge d) s <;> rfl

theorem runEdges_append {xs : List Bool} {s t : State} (h : runEdges xs s = .next t) (ys : List Bool) :
    runEdges (xs ++ ys) s = runEdges ys t := by
  induction xs generalizing s with
  | nil => cases h; rfl
  | cons d xs ih =>
    cases hd : exec (.rxEdge d) s with
    | next u =>
      rw [runEdges_cons hd] at h
      rw [List.cons_append, runEdges_cons hd, ih h]
    | fault f => simp [runEdges, hd] at h
    | refused r => simp [runEdges, hd] at h

/-! ### One armed edge -/

theorem exec_rxEdge_of_armed {s t : State} {d : Bool} (ha : s.rxArmed = true) (ht : s.edgeArm d = some t) :
    exec (.rxEdge d) s = .next (t.ret .ok) := by
  simp [exec, execRxEdge, ha, ht]

/-- `s` after edges that leave BitFrameState at `f` and write nothing else (R132). -/
def State.withFrame (s : State) (f : BitFrame) : State := { s with frame := f, returned := some .ok }

/-- BitFrameState with one more data bit (R133). -/
def BitFrame.receive (f : BitFrame) (d : Bool) : BitFrame :=
  { f with shift := shiftIn d f.shift, parity := foldParity f.parity d, bitpos := f.bitpos + 1 }

theorem exec_rxEdge_start {s : State} (ha : s.rxArmed = true) (hp : s.frame.bitpos.toNat = 0) :
    exec (.rxEdge false) s = .next (s.withFrame { s.frame with bitpos := 1 }) :=
  exec_rxEdge_of_armed (t := s.awaitStartArm false) ha (by simp [State.edgeArm, hp])

theorem exec_rxEdge_bit {s : State} (ha : s.rxArmed = true) (h1 : 1 ≤ s.frame.bitpos.toNat)
    (h8 : s.frame.bitpos.toNat ≤ 8) (d : Bool) :
    exec (.rxEdge d) s = .next (s.withFrame (s.frame.receive d)) := by
  have hne : s.frame.bitpos.toNat ≠ 0 := by omega
  have harm : s.edgeArm d = some (s.bitArm d) := by simp only [State.edgeArm, if_neg hne, if_pos h8]
  exact exec_rxEdge_of_armed ha harm

theorem exec_rxEdge_parity {s : State} (ha : s.rxArmed = true) (hp : s.frame.bitpos.toNat = 9) (d : Bool) :
    exec (.rxEdge d) s = .next (s.withFrame { s.frame with pbit := d, bitpos := 10 }) :=
  exec_rxEdge_of_armed (t := s.parityArm d) ha (by simp [State.edgeArm, hp])

theorem exec_rxEdge_stop {s : State} (ha : s.rxArmed = true) (hp : s.frame.bitpos.toNat = 10) (d : Bool) :
    exec (.rxEdge d) s = .next ((s.stopArm d).ret .ok) :=
  exec_rxEdge_of_armed ha (by simp [State.edgeArm, hp])

/-! ### A frame up to its stop edge -/

/-- Data edges while bits are missing only move BitFrameState on (R133). -/
theorem runEdges_bits (ds : List Bool) {s : State} (ha : s.rxArmed = true) {f : BitFrame}
    (h1 : 1 ≤ f.bitpos.toNat) (h9 : f.bitpos.toNat + ds.length ≤ 9) :
    runEdges ds (s.withFrame f) = .next (s.withFrame (ds.foldl BitFrame.receive f)) := by
  induction ds generalizing f with
  | nil => rfl
  | cons d ds ih =>
    rw [List.length_cons] at h9
    have hedge : exec (.rxEdge d) (s.withFrame f) = .next (s.withFrame (f.receive d)) :=
      exec_rxEdge_bit (s := s.withFrame f) ha h1 (show f.bitpos.toNat ≤ 8 by omega) d
    have hnext : (f.receive d).bitpos.toNat = f.bitpos.toNat + 1 := by
      unfold BitFrame.receive
      bv_omega
    rw [runEdges_cons hedge]
    exact ih (by omega) (by omega)

/-- Eight bits shifted in, the lowest first, are the byte (R133). -/
theorem foldl_shiftIn_dataBits (b : Byte) : (dataBits b).foldl (fun v d => shiftIn d v) 0 = b := by
  have hbits : dataBits b = [b.getLsbD 0, b.getLsbD 1, b.getLsbD 2, b.getLsbD 3, b.getLsbD 4, b.getLsbD 5,
    b.getLsbD 6, b.getLsbD 7] := rfl
  rw [hbits]
  refine BitVec.eq_of_getLsbD_eq fun i hi => ?_
  simp only [List.foldl_cons, List.foldl_nil]
  interval_cases i <;> simp only [shiftIn_getLsbD, Nat.reduceLT, Nat.reduceEqDiff, Nat.reduceAdd, if_true,
    if_false]

/-- Folded into the running parity, they give the byte's (R133). -/
theorem foldl_foldParity_dataBits (b : Byte) : (dataBits b).foldl foldParity false = xorBits b := by
  simp [dataBits, List.range_succ, foldParity, xorBits]

/-- The eight data bits bring the byte and its parity into BitFrameState (R133). -/
theorem foldl_receive_dataBits (b : Byte) :
    (dataBits b).foldl BitFrame.receive { BitFrame.initial with bitpos := 1 } =
      { bitpos := 9, shift := b, parity := xorBits b, pbit := false } := by
  calc (dataBits b).foldl BitFrame.receive { BitFrame.initial with bitpos := 1 }
      = { bitpos := 9, shift := (dataBits b).foldl (fun v d => shiftIn d v) 0,
          parity := (dataBits b).foldl foldParity false, pbit := false } := rfl
    _ = _ := by rw [foldl_shiftIn_dataBits, foldl_foldParity_dataBits]

/-- BitFrameState before the stop edge of a frame for `b` with parity level `p` (R132). -/
def BitFrame.complete (b : Byte) (p : Bool) : BitFrame :=
  { bitpos := 10, shift := b, parity := xorBits b, pbit := p }

/-- From AwaitStart, the first ten edges of a frame leave the byte, its parity and the parity level in
BitFrameState; the stop edge is all that is left (R80, R132). -/
theorem runEdges_frameEdges (b : Byte) (p e : Bool) {s : State} (ha : s.rxArmed = true)
    (hf : s.frame = .initial) :
    runEdges (frameEdges b p e) s = exec (.rxEdge e) (s.withFrame (.complete b p)) := by
  have hstart : exec (.rxEdge false) s = .next (s.withFrame { BitFrame.initial with bitpos := 1 }) :=
    hf ▸ exec_rxEdge_start ha (by rw [hf]; rfl)
  have hdata := runEdges_bits (dataBits b) ha (f := { BitFrame.initial with bitpos := 1 })
    (by decide) (by simp [dataBits])
  rw [foldl_receive_dataBits] at hdata
  have hparity := exec_rxEdge_parity
    (s := s.withFrame { bitpos := 9, shift := b, parity := xorBits b, pbit := false }) ha rfl p
  rw [frameEdges, List.cons_append, runEdges_cons hstart, runEdges_append hdata, runEdges_cons hparity,
    runEdges_singleton]
  rfl

/-- The stop edge of a well-formed frame pushes its byte where there is room (R136). -/
theorem exec_rxEdge_stop_of_accepts {s : State} (ha : s.rxArmed = true)
    (hp : s.frame.bitpos.toNat = 10) {d : Bool} (hacc : s.frame.accepts d = true)
    (hroom : s.rx.isFull s.cfg.rxCapLog2 = false) :
    exec (.rxEdge d) s = .next { s with
      rx := s.rx.store s.cfg.rxCapLog2 s.frame.shift, frame := .initial, returned := some .ok } := by
  rw [exec_rxEdge_stop ha hp, State.stopArm, if_pos hacc]
  rcases s.pushByte_cases .rx s.frame.shift with ⟨hfull, _⟩ | ⟨_, e⟩
  · exact absurd (hfull.symm.trans hroom) (by decide)
  · rw [e]
    rfl

/-- The parity level of a well-formed frame passes the check (R81, R136). -/
theorem BitFrame.accepts_complete (b : Byte) :
    (BitFrame.complete b (parityBit b)).accepts true = true := by
  simp [BitFrame.accepts, BitFrame.parityGood, BitFrame.complete, parityBit]

end Sys2Proof.Machine
end

section
/-! SUPPORT. The transmitter tick by tick (spec/43_serial_transmitter.md R171 to R181): one equation for
each kind of armed tick, a byte's serial frame (spec/30_encoding.md R83), and the queued bytes in turn. -/

namespace Sys2Proof.Machine

/-! ### Tick after tick -/

theorem runTicks_succ {s t u : State} {k : Nat} {ls : List Bool} (h : exec .txTick s = .next t)
    (hk : runTicks k t = some (ls, u)) : runTicks (k + 1) s = some (t.txd :: ls, u) := by
  simp only [runTicks, h, hk]

theorem runTicks_add {m n : Nat} {s t u : State} {ls ls' : List Bool} (hm : runTicks m s = some (ls, t))
    (hn : runTicks n t = some (ls', u)) : runTicks (m + n) s = some (ls ++ ls', u) := by
  induction m generalizing s ls with
  | zero => cases hm; simpa using hn
  | succ m ih =>
    rw [Nat.succ_add]
    cases hs : exec .txTick s with
    | next v =>
      cases hv : runTicks m v with
      | some p =>
        simp only [runTicks, hs, hv, Option.some.injEq, Prod.mk.injEq] at hm
        obtain ⟨rfl, rfl⟩ := hm
        exact runTicks_succ hs (ih hv)
      | none => simp [runTicks, hs, hv] at hm
    | fault f => simp [runTicks, hs] at hm
    | refused r => simp [runTicks, hs] at hm

/-! ### One armed tick -/

/-- The transmitter is between two bytes: its next tick is a `NextByte()` (R172). -/
def State.BetweenBytes (s : State) : Prop :=
  s.txState = 0 ∨ (s.txState = 9 ∧ s.cfg.stopBits = .one) ∨ s.txState = 10

/-- The state whose bit on the line is a frame's last stop bit (R36, R177, R178). -/
def lastStopState (c : Config) : BitVec 4 :=
  match c.stopBits with
  | .one => 9
  | .two => 10

theorem State.betweenBytes_of_lastStop {s : State} (h : s.txState = lastStopState s.cfg) :
    s.BetweenBytes := by
  cases hs : s.cfg.stopBits with
  | one => exact .inr (.inl ⟨by rw [h, lastStopState, hs], hs⟩)
  | two => exact .inr (.inr (by rw [h, lastStopState, hs]))

theorem State.txArm_of_betweenBytes {s : State} (h : s.BetweenBytes) : s.txArm = some s.nextByte := by
  rcases h with h | ⟨h, hs⟩ | h
  · simp [State.txArm, h]
  · simp [State.txArm, h, hs]
  · simp [State.txArm, h]

theorem exec_txTick_of_armed {s t : State} (ha : s.txArmed = true) (ht : s.countTick.txArm = some t) :
    exec .txTick s = .next (t.ret .ok) := by
  simp [exec, execTxTick, State.txTick, ha, ht]

/-- `s` after armed ticks: the registers they write, at the values named (R171, R180). -/
def State.withTx (s : State) (c : Word) (r : Ring) (p : BitVec 4) (v : Byte) (l : Bool) : State :=
  { s with tickCount := c, tx := r, txState := p, txShift := v, txLine := l, returned := some .ok }

@[simp] theorem State.withTx_cfg (s : State) (c : Word) (r : Ring) (p : BitVec 4) (v : Byte) (l : Bool) :
    (s.withTx c r p v l).cfg = s.cfg := rfl
@[simp] theorem State.withTx_tickCount (s : State) (c : Word) (r : Ring) (p : BitVec 4) (v : Byte)
    (l : Bool) : (s.withTx c r p v l).tickCount = c := rfl
@[simp] theorem State.withTx_txState (s : State) (c : Word) (r : Ring) (p : BitVec 4) (v : Byte)
    (l : Bool) : (s.withTx c r p v l).txState = p := rfl

/-- Between bytes with one queued, the tick drives the start bit of the oldest (R172, R173). -/
theorem exec_txTick_start {s : State} (ha : s.txArmed = true) (hb : s.BetweenBytes)
    (hbyte : s.tx.isEmpty s.cfg.txCapLog2 = false) :
    exec .txTick s = .next (s.withTx (s.tickCount + 1) (s.tx.advance s.cfg.txCapLog2) 1
      (s.tx.oldest s.cfg.txCapLog2 .tx) false) := by
  rw [exec_txTick_of_armed ha (State.txArm_of_betweenBytes (s := s.countTick) hb)]
  rcases s.countTick.nextByte_cases with ⟨hempty, _⟩ | ⟨_, e⟩
  · exact absurd (hempty.symm.trans hbyte) (by decide)
  · rw [e]
    rfl

/-- From Start and the data bits but the last, the tick drives the shift register's lowest bit (R174). -/
theorem exec_txTick_data {s : State} (ha : s.txArmed = true) (h1 : 1 ≤ s.txState.toNat)
    (h7 : s.txState.toNat ≤ 7) :
    exec .txTick s = .next (s.withTx (s.tickCount + 1) s.tx (s.txState + 1) (s.txShift >>> 1)
      (s.txShift.getLsbD 0)) := by
  have hne : s.txState.toNat ≠ 0 := by omega
  have harm : s.countTick.txArm = some (s.countTick.dataOut (s.txState + 1)) := by
    rcases s.countTick.txArm_cases with ⟨h, _⟩ | ⟨_, _, e⟩ | ⟨h, _⟩ | ⟨h, _⟩ | ⟨h, _⟩
    · exact absurd h (by simp only [State.countTick_txState]; omega)
    · exact e
    all_goals exact absurd h (by simp only [State.countTick_txState]; omega)
  exact exec_txTick_of_armed ha harm

/-- From the last data bit, the tick drives the stop bit (R175). -/
theorem exec_txTick_stop {s : State} (ha : s.txArmed = true) (h8 : s.txState = 8) :
    exec .txTick s = .next (s.withTx (s.tickCount + 1) s.tx 9 s.txShift true) :=
  exec_txTick_of_armed (t := { s.countTick with txLine := true, txState := 9 }) ha
    (by simp [State.txArm, h8])

/-- With two stop bits, the tick after the first drives the second (R177). -/
theorem exec_txTick_extraStop {s : State} (ha : s.txArmed = true) (h9 : s.txState = 9)
    (hs : s.cfg.stopBits = .two) :
    exec .txTick s = .next (s.withTx (s.tickCount + 1) s.tx 10 s.txShift true) :=
  exec_txTick_of_armed (t := { s.countTick with txLine := true, txState := 10 }) ha
    (by simp [State.txArm, h9, hs])

/-! ### A byte's frame and the queued bytes -/

/-- Ticks move the tick counter on by their number (R180). -/
theorem tickCount_add_ofNat (c : Word) (m n : Nat) :
    c + BitVec.ofNat 32 m + BitVec.ofNat 32 n = c + BitVec.ofNat 32 (m + n) := by
  rw [BitVec.add_assoc, BitVec.ofNat_add]

/-- Data ticks drive the shift register's bits, the lowest first (R174). -/
theorem runTicks_data (k : Nat) {s : State} (ha : s.txArmed = true) {p : BitVec 4}
    (h1 : 1 ≤ p.toNat) (h8 : p.toNat + k ≤ 8) (c : Word) (r : Ring) (v : Byte) (l : Bool) : ∃ l',
    runTicks k (s.withTx c r p v l) = some ((List.range k).map v.getLsbD,
      s.withTx (c + BitVec.ofNat 32 k) r (p + BitVec.ofNat 4 k) (v >>> k) l') := by
  induction k generalizing p c v l with
  | zero => exact ⟨l, by simp [runTicks]⟩
  | succ k ih =>
    have htick : exec .txTick (s.withTx c r p v l) =
        .next (s.withTx (c + 1) r (p + 1) (v >>> 1) (v.getLsbD 0)) :=
      exec_txTick_data (s := s.withTx c r p v l) ha h1 (show p.toNat ≤ 7 by omega)
    have hnext : (p + 1).toNat = p.toNat + 1 := by bv_omega
    obtain ⟨l', hk⟩ := ih (p := p + 1) (by omega) (by omega) (c + 1) (v >>> 1) (v.getLsbD 0)
    have hbits : (List.range (k + 1)).map v.getLsbD =
        v.getLsbD 0 :: (List.range k).map (v >>> 1).getLsbD := by
      rw [List.range_succ_eq_map, List.map_cons, List.map_map]
      exact congrArg _ (List.map_congr_left fun i _ => by simp [Nat.add_comm 1 i])
    refine ⟨l', (runTicks_succ htick hk).trans ?_⟩
    rw [hbits, Nat.add_comm k 1, ← tickCount_add_ofNat, BitVec.ofNat_add, ← BitVec.add_assoc,
      BitVec.shiftRight_add]
    rfl

/-- The stop bits of a frame are marks (R175, R177). -/
theorem runTicks_stop {s : State} (ha : s.txArmed = true) (c : Word) (r : Ring) (v : Byte) (l : Bool) :
    runTicks (stopBitCount s.cfg) (s.withTx c r 8 v l) =
      some (List.replicate (stopBitCount s.cfg) true,
        s.withTx (c + BitVec.ofNat 32 (stopBitCount s.cfg)) r (lastStopState s.cfg) v true) := by
  have hstop : exec .txTick (s.withTx c r 8 v l) = .next (s.withTx (c + 1) r 9 v true) :=
    exec_txTick_stop (s := s.withTx c r 8 v l) ha rfl
  cases hs : s.cfg.stopBits with
  | one =>
    simp only [stopBitCount, lastStopState, hs]
    exact runTicks_succ hstop rfl
  | two =>
    have hextra : exec .txTick (s.withTx (c + 1) r 9 v true) = .next (s.withTx (c + 1 + 1) r 10 v true) :=
      exec_txTick_extraStop (s := s.withTx (c + 1) r 9 v true) ha rfl hs
    simp only [stopBitCount, lastStopState, hs, ← tickCount_add_ofNat c 1 1]
    exact runTicks_succ hstop (runTicks_succ hextra rfl)

/-- Between bytes with one queued, `8 + STOP_BITS` ticks drive the frame of the oldest and take it from
the ring; the last stop bit is then on the line (R83, R179). -/
theorem runTicks_serialFrame {s : State} (ha : s.txArmed = true) (hb : s.BetweenBytes)
    (hbyte : s.tx.isEmpty s.cfg.txCapLog2 = false) :
    runTicks (8 + stopBitCount s.cfg) s =
      some (serialFrame (s.tx.oldest s.cfg.txCapLog2 .tx) (stopBitCount s.cfg),
        s.withTx (s.tickCount + BitVec.ofNat 32 (8 + stopBitCount s.cfg)) (s.tx.advance s.cfg.txCapLog2)
          (lastStopState s.cfg) (s.tx.oldest s.cfg.txCapLog2 .tx >>> 7) true) := by
  have hstart := exec_txTick_start ha hb hbyte
  obtain ⟨l, hdata⟩ := runTicks_data 7 ha (p := 1) (by decide) (by decide) (s.tickCount + 1)
    (s.tx.advance s.cfg.txCapLog2) (s.tx.oldest s.cfg.txCapLog2 .tx) false
  refine (runTicks_add (runTicks_succ hstart hdata) (runTicks_stop ha _ _ _ _)).trans ?_
  rw [← tickCount_add_ofNat, ← tickCount_add_ofNat s.tickCount 1 7]
  rfl

/-- The queued bytes leave as their frames, one after another (R179, R181). -/
theorem runTicks_queue (bs : List Byte) {s : State} (ha : s.txArmed = true) (hb : s.BetweenBytes)
    (hok : s.tx.Ok s.cfg.txCapLog2) (hbs : s.tx.contents s.cfg.txCapLog2 .tx = bs) :
    ∃ t, runTicks (bs.length * (8 + stopBitCount s.cfg)) s =
        some (bs.flatMap (fun b => serialFrame b (stopBitCount s.cfg)), t) ∧
      t.tx.contents s.cfg.txCapLog2 .tx = [] ∧
      t.tickCount = s.tickCount + BitVec.ofNat 32 (bs.length * (8 + stopBitCount s.cfg)) ∧
      t.txState = if bs = [] then s.txState else lastStopState s.cfg := by
  induction bs generalizing s with
  | nil => exact ⟨s, by simp [runTicks], hbs, by simp, rfl⟩
  | cons b bs ih =>
    have hbyte : s.tx.isEmpty s.cfg.txCapLog2 = false := by
      rw [Ring.isEmpty_eq_false, ← Ring.length_contents _ .tx, hbs]
      exact Nat.succ_ne_zero _
    have hcons := Ring.contents_eq_oldest_cons hok hbyte .tx
    obtain ⟨hoff, hrest⟩ := List.cons.inj (hbs.symm.trans hcons)
    have hframe := runTicks_serialFrame ha hb hbyte
    obtain ⟨t, hrun, hnil, hcount, hstate⟩ := ih
      (s := s.withTx (s.tickCount + BitVec.ofNat 32 (8 + stopBitCount s.cfg)) (s.tx.advance s.cfg.txCapLog2)
        (lastStopState s.cfg) (s.tx.oldest s.cfg.txCapLog2 .tx >>> 7) true) ha
      (State.betweenBytes_of_lastStop rfl) (Ring.ok_advance hok hbyte) hrest.symm
    simp only [State.withTx_cfg, State.withTx_tickCount, State.withTx_txState, ite_self]
      at hrun hnil hcount hstate
    have hlen : (b :: bs).length * (8 + stopBitCount s.cfg) =
        (8 + stopBitCount s.cfg) + bs.length * (8 + stopBitCount s.cfg) := by
      rw [List.length_cons, Nat.succ_mul, Nat.add_comm]
    refine ⟨t, ?_, hnil, ?_, hstate⟩
    · rw [hlen, runTicks_add hframe hrun, ← hoff, List.flatMap_cons]
    · rw [hlen, hcount, tickCount_add_ofNat]

end Sys2Proof.Machine
end

section
/-! SUPPORT. Bit 6 of a packet's bytes, the mark of its start (spec/30_encoding.md R88,
spec/44_packet_encoder.md R194 to R199). -/

namespace Sys2Proof.Machine

theorem packetByte0_bit6 (buttons : Buttons) (dx8 dy8 : Byte) :
    (packetByte0 buttons dx8 dy8).getLsbD 6 = true := by
  simp [packetByte0]

theorem packetLow_bit6 (d8 : Byte) : (packetLow d8).getLsbD 6 = false := by
  simp [packetLow]

theorem packetByte3_bit6 {mode : Mode} {buttons : Buttons} {aw : Half} {b : Byte}
    (hb : b ∈ packetByte3 mode buttons aw) : b.getLsbD 6 = false := by
  cases mode with
  | twoButton => cases hb
  | threeButton | wheelMouse =>
    cases List.mem_singleton.mp hb
    simp

end Sys2Proof.Machine
end

section
/-! CERTIFICATES. The statements of spec/30_encoding.md about frames and packets, and the first poll of
`RX_READ`. -/

namespace Sys2Proof.Encoding

open Sys2Proof.Machine

/-- Settles O22: ten edges bring the byte and its parity into BitFrameState, and the stop edge pushes it. -/
theorem wellFormedFrameDeliversItsByte : Obligations.WellFormedFrameDeliversItsByte := by
  intro b s hs ha hf hlt
  have hroom : s.rx.isFull s.cfg.rxCapLog2 = false := Ring.isFull_eq_false.mpr (Nat.ne_of_lt hlt)
  have hrun : runEdges (frameEdges b (parityBit b) true) s = .next { s with
      rx := s.rx.store s.cfg.rxCapLog2 b, frame := .initial, returned := some .ok } :=
    (runEdges_frameEdges b (parityBit b) true ha hf).trans
      (exec_rxEdge_stop_of_accepts (s := s.withFrame _) ha rfl (BitFrame.accepts_complete b) hroom)
  refine ⟨_, hrun, Ring.contents_store hs.rx hroom .rx b, fun k hk => Memory.read?_write_other _ hk b, rfl,
    rfl, rfl, ?_⟩
  rw [← hf]

/-- Settles O37, by induction on the queued bytes: one frame each. -/
theorem queuedBytesLeaveAsSerialFrames : Obligations.QueuedBytesLeaveAsSerialFrames := by
  intro bs s hs ha hb hbs
  obtain ⟨t, hrun, hnil, hcount, _⟩ := runTicks_queue bs ha hb hs.tx hbs
  exact ⟨t, hrun, hnil, hcount⟩

/-- Settles O45, byte by byte. -/
theorem packetStartIsMarked : Obligations.PacketStartIsMarked := by
  intro mode bt ax ay aw
  refine ⟨_, _, rfl, length_encodePacket mode bt ax ay aw, packetByte0_bit6 .., packetByte0_bit7 ..,
    fun b hb => ?_⟩
  rcases List.mem_append.mp hb with hb | hb
  · rcases List.mem_pair.mp hb with rfl | rfl <;> exact ⟨packetLow_bit6 _, packetLow_bit7 _⟩
  · exact ⟨packetByte3_bit6 hb, packetByte3_bit7 hb⟩

/-- Settles O27, from the three cases of a poll with `n` polls after it. -/
theorem rxReadTakesItsFirstPoll : Obligations.RxReadTakesItsFirstPoll := by
  intro n s
  have hexec : exec (.rxRead n) s = .next (s.readPoll n n.toNat) := rfl
  have hzero : n.toNat = 0 ↔ n = 0 := by simp [BitVec.toNat_eq]
  rw [hexec]
  rcases s.readPoll_cases n n.toNat with ⟨hbyte, e⟩ | ⟨hempty, hn, e⟩ | ⟨hempty, hn, e⟩ <;> rw [e]
  · have hne := Ring.isEmpty_eq_false.mp hbyte
    exact ⟨fun _ => rfl, fun h => absurd h hne, fun h => absurd h hne⟩
  · have h0 := Ring.isEmpty_iff.mp hempty
    exact ⟨fun h => absurd h0 h, fun _ _ => rfl, fun _ h => absurd (hzero.mp hn) h⟩
  · have h0 := Ring.isEmpty_iff.mp hempty
    exact ⟨fun h => absurd h0 h, fun _ h => absurd (hzero.mpr h) hn, fun _ _ => rfl⟩

end Sys2Proof.Encoding
end

section
/-! SUPPORT. The ring primitives as operations (spec/41_ring_buffer.md R111 to R114): the next state in
each case of the ring, the laws of overwriting a ring, and the count as a distance in the integers. -/

namespace Sys2Proof.Machine

/-! ### Overwriting a ring -/

@[simp] theorem State.setRing_setRing (s : State) (q : RingId) (r r' : Ring) :
    (s.setRing q r).setRing q r' = s.setRing q r' := by
  cases q <;> rfl

@[simp] theorem State.setRing_ret (s : State) (x : Result) (q : RingId) (r : Ring) :
    (s.ret x).setRing q r = (s.setRing q r).ret x := by
  cases q <;> rfl

/-- Putting a ring back undoes every write to it, under a result. -/
theorem State.setRing_ret_setRing (s : State) (q : RingId) (r : Ring) (x : Result) :
    ((s.setRing q r).ret x).setRing q (s.ring q) = s.ret x := by
  rw [State.setRing_ret, State.setRing_setRing, State.setRing_ring]

/-- Putting back the ring, the history and the result undoes a ring write, an event and a result. -/
theorem State.setRing_emit_ret_restore (s : State) (q : RingId) (r : Ring) (e : Event) (x : Result) :
    { (((s.setRing q r).emit e).ret x).setRing q (s.ring q) with
      events := s.events, returned := s.returned } = s := by
  cases q <;> rfl

/-- A drop writes nothing but the overflow counter. -/
theorem Ring.drop_restoreOvf (r : Ring) : { r.drop with ovf := r.ovf } = r := by
  cases r; rfl

/-! ### The primitives, case by case -/

theorem exec_rbReset (q : RingId) (s : State) :
    exec (.rbReset q) s = .next ((s.setRing q (s.ring q).reset).ret .ok) := rfl

theorem State.pushByte_of_room {s : State} {q : RingId}
    (h : (s.ring q).count (s.capLog2 q) ≠ cap (s.capLog2 q)) (b : Byte) :
    s.pushByte q b = (.ok, s.setRing q ((s.ring q).store (s.capLog2 q) b)) := by
  simp [State.pushByte, Ring.isFull_eq_false.mpr h]

theorem State.pushByte_of_full {s : State} {q : RingId}
    (h : (s.ring q).count (s.capLog2 q) = cap (s.capLog2 q)) (b : Byte) :
    s.pushByte q b = (.dropped, (s.setRing q (s.ring q).drop).emit (.overflow q b)) := by
  simp [State.pushByte, Ring.isFull_iff.mpr h]

theorem State.popByte_of_empty {s : State} {q : RingId} (h : (s.ring q).count (s.capLog2 q) = 0) :
    s.popByte q = (.empty, s) := by
  simp [State.popByte, Ring.isEmpty_iff.mpr h]

theorem State.popByte_of_byte {s : State} {q : RingId} (h : (s.ring q).count (s.capLog2 q) ≠ 0) :
    s.popByte q = (.byte ((s.ring q).oldest (s.capLog2 q) q),
      s.setRing q ((s.ring q).advance (s.capLog2 q))) := by
  simp [State.popByte, Ring.isEmpty_eq_false.mpr h]

/-- A push as an operation is the push with its answer returned. -/
theorem exec_rbPush {s t : State} {q : RingId} {b : Byte} {x : Result} (h : s.pushByte q b = (x, t)) :
    exec (.rbPush q b) s = .next (t.ret x) := by
  simp only [exec, execRbPush, h]

/-- A pop as an operation is the pop with its answer returned. -/
theorem exec_rbPop {s t : State} {q : RingId} {x : Result} (h : s.popByte q = (x, t)) :
    exec (.rbPop q) s = .next (t.ret x) := by
  simp only [exec, execRbPop, h]

/-! ### The count -/

/-- The count is the distance from tail to head modulo `2^(N+1)` in the integers, for indices of any
value: adding the wrap keeps the subtraction in the naturals and drops out of the remainder (R31). -/
theorem Ring.count_eq_emod (n : Nat) (r : Ring) :
    (r.count n : Int) = ((r.head : Int) - (r.tail : Int)) % (wrap n : Int) := by
  have hle : r.tail % wrap n ≤ wrap n := (Nat.mod_lt _ (Nat.two_pow_pos (n + 1))).le
  calc (r.count n : Int)
      = ((r.head : Int) + ((wrap n : Int) - (r.tail : Int) % (wrap n : Int))) % (wrap n : Int) := by
        simp [Ring.count, Nat.cast_sub hle]
    _ = ((r.head : Int) - (r.tail : Int) % (wrap n : Int) + (wrap n : Int)) % (wrap n : Int) := by
        congr 1; ring
    _ = ((r.head : Int) - (r.tail : Int)) % (wrap n : Int) := by
        rw [Int.add_emod_right, Int.sub_emod_emod]

end Sys2Proof.Machine
end

section
/-! CERTIFICATES. The statements of spec/41_ring_buffer.md about the ring primitives (R111 to R114). -/

namespace Sys2Proof.RingBuffer

open Sys2Proof.Machine

/-- Settles O14: the answer is the count, and the count is the distance in the integers. -/
theorem countIsTheModularDistance : Obligations.CountIsTheModularDistance := by
  intro q s
  have hcount := (s.ring q).count_eq_emod (s.capLog2 q)
  refine ⟨by cases q <;> rfl, _, rfl, ?_⟩
  simpa [wrap] using hcount

/-- Settles O11: the push is a store into the ring, and a store writes one slot and the head. -/
theorem pushStoresAtTheHeadSlot : Obligations.PushStoresAtTheHeadSlot := by
  intro q b s hroom
  refine ⟨_, exec_rbPush (State.pushByte_of_room hroom b), rfl, ?_⟩
  rw [State.ret_ring, State.ring_setRing]
  exact ⟨memRead_write_same .., fun k hk => Memory.read?_write_other _ hk b, rfl, rfl, rfl,
    s.setRing_ret_setRing ..⟩

/-- Settles O12: the push only counts the drop and records it. -/
theorem pushOnAFullRingDropsTheByte : Obligations.PushOnAFullRingDropsTheByte := by
  intro q b s hfull
  refine ⟨_, exec_rbPush (State.pushByte_of_full hfull b), rfl, ?_⟩
  rw [State.ret_ring, State.emit_ring, State.ring_setRing]
  refine ⟨?_, ?_, rfl, ?_⟩
  · rw [State.ret_events, State.emit_events, State.setRing_events]
  · rw [Ring.drop_ovf, satInc16_toNat]
  · rw [Ring.drop_restoreOvf, State.setRing_emit_ret_restore]

/-- Settles O13, by whether the ring is empty. -/
theorem popReturnsTheTailSlot : Obligations.PopReturnsTheTailSlot := by
  intro q s
  exact ⟨fun hempty => exec_rbPop (State.popByte_of_empty hempty),
    fun hbyte => exec_rbPop (State.popByte_of_byte hbyte)⟩

/-- Settles O15: the reset writes both indices of its ring, and equal indices count 0. -/
theorem ringResetEmptiesTheRing : Obligations.RingResetEmptiesTheRing := by
  intro q s
  refine ⟨by cases q <;> rfl, _, exec_rbReset q s, rfl, ?_⟩
  rw [State.ret_ring, State.ring_setRing]
  exact ⟨Ring.count_reset .., rfl, s.setRing_ret_setRing ..⟩

end Sys2Proof.RingBuffer
end

section
/-! SUPPORT. The receiver's operations case by case (spec/42_ps2_receiver.md R131 to R144): the edges that
are lost, ignored, discarded or fault, the stop edge by its check, the poll agent's operations, and a read
on a ring that stays empty; with the disarmed and the unreachable transmitter (R170, R171). -/

namespace Sys2Proof.Machine

/-! ### Disarmed units -/

theorem exec_rxEdge_of_disarmed {s : State} (ha : s.rxArmed = false) (d : Bool) :
    exec (.rxEdge d) s = .next (s.ret .ok) := by
  simp [exec, execRxEdge, ha]

theorem exec_txTick_of_disarmed {s : State} (ha : s.txArmed = false) :
    exec .txTick s = .next (s.ret .ok) := by
  simp [exec, execTxTick, State.txTick, ha]

theorem exec_btClk_of_disarmed {s : State} (ha : s.txArmed = false) :
    exec .btClk s = .next (s.ret .ok) := by
  simp [exec, execBtClk, ha]

/-! ### Register values that no run reaches -/

theorem State.edgeArm_of_unreachable {s : State} (hp : 11 ≤ s.frame.bitpos.toNat) (d : Bool) :
    s.edgeArm d = none := by
  rcases s.edgeArm_cases d with ⟨h0, _⟩ | ⟨_, h8, _⟩ | ⟨h9, _⟩ | ⟨h10, _⟩ | ⟨_, e⟩
  · omega
  · omega
  · omega
  · omega
  · exact e

theorem State.txArm_of_unreachable {s : State} (hp : 11 ≤ s.txState.toNat) : s.txArm = none := by
  rcases s.txArm_cases with ⟨hnext, _⟩ | ⟨_, h7, _⟩ | ⟨h8, _⟩ | ⟨h9, _, _⟩ | ⟨_, e⟩
  · omega
  · omega
  · omega
  · omega
  · exact e

theorem exec_rxEdge_of_unreachable {s : State} (ha : s.rxArmed = true)
    (hp : 11 ≤ s.frame.bitpos.toNat) (d : Bool) :
    exec (.rxEdge d) s = .fault (.unreachableState .rxBitpos) := by
  simp [exec, execRxEdge, ha, State.edgeArm_of_unreachable hp]

/-- An armed tick counts before it looks at `tx_state`, which counting leaves alone (R171, R180). -/
theorem State.txTick_of_unreachable {s : State} (ha : s.txArmed = true) (hp : 11 ≤ s.txState.toNat) :
    s.txTick = none := by
  have harm : s.countTick.txArm = none := State.txArm_of_unreachable hp
  simp [State.txTick, ha, harm]

theorem exec_txTick_of_unreachable {s : State} (ha : s.txArmed = true) (hp : 11 ≤ s.txState.toNat) :
    exec .txTick s = .fault (.unreachableState .txState) := by
  simp [exec, execTxTick, State.txTick_of_unreachable ha hp]

/-- The timer clock that fires the tick faults as the tick does (R170, log 9). -/
theorem exec_btClk_of_unreachable {s : State} (ha : s.txArmed = true) (hp : 11 ≤ s.txState.toNat)
    (hm : s.btCount = s.btCompare) : exec .btClk s = .fault (.unreachableState .txState) := by
  have htick : s.clearBtCount.txTick = none := State.txTick_of_unreachable (s := s.clearBtCount) ha hp
  simp [exec, execBtClk, ha, State.timerMatch, hm, htick]

/-! ### The start edge that is ignored and the stop edge by its check -/

theorem exec_rxEdge_startError {s : State} (ha : s.rxArmed = true) (hp : s.frame.bitpos.toNat = 0) :
    exec (.rxEdge true) s = .next ((s.emit .startError).ret .ok) :=
  exec_rxEdge_of_armed (t := s.awaitStartArm true) ha (by simp [State.edgeArm, hp])

theorem exec_rxEdge_stop_push {s : State} (ha : s.rxArmed = true) (hp : s.frame.bitpos.toNat = 10)
    {d : Bool} (hacc : s.frame.accepts d = true) :
    exec (.rxEdge d) s = .next ((s.pushByte .rx s.frame.shift).2.frameReset.ret .ok) := by
  rw [exec_rxEdge_stop ha hp, State.stopArm, if_pos hacc]

theorem exec_rxEdge_stop_discard {s : State} (ha : s.rxArmed = true) (hp : s.frame.bitpos.toNat = 10)
    {d : Bool} (hacc : s.frame.accepts d = false) :
    exec (.rxEdge d) s = .next { s with
      frame := .initial
      events := s.events ++ [if d then .parityError else .stopError]
      returned := some .ok } := by
  rw [exec_rxEdge_stop ha hp, State.stopArm, if_neg (ne_true_of_eq_false hacc)]
  rfl

/-- From AwaitStart, a frame that the stop edge discards ends in the state it began in, but for its one
event (R137, R138). -/
theorem runEdges_frameEdges_discard {b : Byte} {p e : Bool} {s : State} (ha : s.rxArmed = true)
    (hf : s.frame = .initial) (hacc : (BitFrame.complete b p).accepts e = false) :
    runEdges (frameEdges b p e) s = .next { s with
      events := s.events ++ [if e then .parityError else .stopError], returned := some .ok } := by
  have hstop := exec_rxEdge_stop_discard (s := s.withFrame (.complete b p)) ha rfl hacc
  rw [runEdges_frameEdges b p e ha hf, hstop, ← hf]
  rfl

/-! ### The poll agent's operations -/

theorem exec_rxStart_of_armed {s : State} (ha : s.rxArmed = true) :
    exec .rxStart s = .fault (.reinitWhileArmed .rx) := by
  simp [exec, execRxStart, ha]

theorem exec_rxStart_of_disarmed {s : State} (ha : s.rxArmed = false) :
    exec .rxStart s = .next { s with
      rxArmed := true, frame := .initial, rx := s.rx.reset, returned := some .ok } := by
  simp only [exec, execRxStart, ha]
  rfl

/-- `RX_POLL` is a pop of the RX ring with its answer returned (R141). -/
theorem exec_rxPoll {s t : State} {x : Result} (h : s.popByte .rx = (x, t)) :
    exec .rxPoll s = .next (t.ret x) := by
  simp only [exec, execRxPoll, h]

/-! ### The polls of a read -/

theorem State.readPoll_of_byte {s : State} (h : s.rx.count s.cfg.rxCapLog2 ≠ 0) (n : Half) (left : Nat) :
    s.readPoll n left = { s with
      rx := s.rx.advance s.cfg.rxCapLog2
      poll := .idle
      returned := some (.byte (s.rx.oldest s.cfg.rxCapLog2 .rx)) } := by
  have hpop := State.popByte_of_byte (s := s) (q := .rx) h
  simp only [State.readPoll, hpop]
  rfl

theorem State.readPoll_last_of_empty {s : State} (h : s.rx.count s.cfg.rxCapLog2 = 0) (n : Half) :
    s.readPoll n 0 =
      { s with poll := .idle, events := s.events ++ [.timeout n], returned := some .timeout } := by
  have hpop := State.popByte_of_empty (s := s) (q := .rx) h
  simp only [State.readPoll, hpop]
  rfl

theorem State.readPoll_succ_of_empty {s : State} (h : s.rx.count s.cfg.rxCapLog2 = 0) (n : Half)
    (k : Nat) : s.readPoll n (k + 1) = { s with poll := .reading n k, returned := none } := by
  have hpop := State.popByte_of_empty (s := s) (q := .rx) h
  simp only [State.readPoll, hpop]
  rfl

/-- After an empty poll that is not the last, the next step of the sequence is the next poll (R142). -/
theorem continueN_succ_readPoll_succ {s : State} (h : s.rx.count s.cfg.rxCapLog2 = 0) (n : Half)
    (j k : Nat) : continueN (j + 1) (s.readPoll n (k + 1)) =
      continueN j (State.readPoll { s with poll := .reading n k, returned := none } n k) := by
  rw [continueN, State.readPoll_succ_of_empty h, State.continuePoll_of_reading rfl]

/-- On a ring that stays empty, each poll but the last leaves one poll less (R142). -/
theorem continueN_readPoll_of_empty (n : Half) (k j : Nat) {s : State}
    (h : s.rx.count s.cfg.rxCapLog2 = 0) :
    continueN k (s.readPoll n (k + j + 1)) = { s with poll := .reading n j, returned := none } := by
  induction k generalizing s with
  | zero =>
    rw [Nat.zero_add]
    exact State.readPoll_succ_of_empty h n j
  | succ k ih =>
    rw [continueN_succ_readPoll_succ h, Nat.succ_add]
    exact ih h

/-- On a ring that stays empty, the last poll times out, and nothing else has changed (R142, log 14). -/
theorem continueN_readPoll_last (n : Half) (left : Nat) {s : State}
    (h : s.rx.count s.cfg.rxCapLog2 = 0) :
    continueN left (s.readPoll n left) =
      { s with poll := .idle, events := s.events ++ [.timeout n], returned := some .timeout } := by
  induction left generalizing s with
  | zero => exact State.readPoll_last_of_empty h n
  | succ left ih =>
    rw [continueN_succ_readPoll_succ h]
    exact ih h

end Sys2Proof.Machine
end

section
/-! CERTIFICATES. The statements of spec/42_ps2_receiver.md about single edges, the frames that are
discarded and the poll agent's operations, with the quiescence of disarmed units (R241). -/

namespace Sys2Proof.Receiver

open Sys2Proof.Machine

/-- Settles O19, state by state: each edge's equation gives the whole next state. -/
theorem edgeAdvancesTheFrame : Obligations.EdgeAdvancesTheFrame := by
  intro d s ha
  refine ⟨fun hp hd => ?_, fun hp hd => ?_, fun h1 h8 => ?_, fun hp => exec_rxEdge_parity ha hp d⟩
  · subst hd
    exact exec_rxEdge_startError ha hp
  · subst hd
    exact exec_rxEdge_start ha hp
  · have hnext : (s.frame.bitpos + 1).toNat = s.frame.bitpos.toNat + 1 := by bv_omega
    refine ⟨_, exec_rxEdge_bit ha h1 h8 d, hnext, shiftIn_getLsbD d _ (by decide), fun k hk => ?_, rfl, rfl,
      rfl, rfl⟩
    exact (shiftIn_getLsbD d _ (by omega)).trans (if_neg (by omega))

/-- Settles O23: ten edges bring the byte and the parity level into BitFrameState, and the check at the
stop edge fails. -/
theorem corruptedFrameLeavesNoTrace : Obligations.CorruptedFrameLeavesNoTrace := by
  intro b p e s ha hf
  refine ⟨fun he => ?_, fun he hp => ?_⟩
  · subst he
    exact runEdges_frameEdges_discard ha hf rfl
  · subst he hp
    have hacc : (BitFrame.complete b (!parityBit b)).accepts true = false := by
      simp [BitFrame.accepts, BitFrame.parityGood, BitFrame.complete, parityBit]
    exact runEdges_frameEdges_discard ha hf hacc

/-- Settles O28, by induction on the polls left. -/
theorem rxReadOnAnEmptyRingTimesOut : Obligations.RxReadOnAnEmptyRingTimesOut := by
  intro n s h
  refine ⟨_, rfl, fun k hk => ?_, continueN_readPoll_last n n.toNat h⟩
  obtain ⟨j, hj⟩ := Nat.exists_eq_add_of_lt hk
  have hleft : n.toNat - 1 - k = j := by omega
  rw [hleft, hj, continueN_readPoll_of_empty n k j h]
  exact ⟨rfl, rfl⟩

/-- Settles O18: the arming test comes before the transition. -/
theorem disarmedEdgeIsLost : Obligations.DisarmedEdgeIsLost := by
  intro d s ha
  exact exec_rxEdge_of_disarmed ha d

/-- Settles O20, by the check of the stop level and the parity. -/
theorem stopEdgePushesOrDiscards : Obligations.StopEdgePushesOrDiscards := by
  intro d s ha hp
  refine ⟨fun hd hgood => ?_, fun hd => ?_, fun hd hbad => ?_⟩ <;> subst hd
  · exact ⟨_, exec_rbPush rfl, exec_rxEdge_stop_push ha hp hgood⟩
  · exact exec_rxEdge_stop_discard ha hp rfl
  · exact exec_rxEdge_stop_discard ha hp hbad

/-- Settles O21: no transition is given for the values 11 to 15. -/
theorem unreachableRegisterValuesFault : Obligations.UnreachableRegisterValuesFault := by
  intro s
  exact ⟨exec_rxEdge_of_unreachable,
    fun ha hp => ⟨exec_txTick_of_unreachable ha hp, exec_btClk_of_unreachable ha hp⟩⟩

/-- Settles O24: the operation writes `rx_armed` and BitFrameState alone. -/
theorem rxStopDisarmsAndKeepsTheRing : Obligations.RxStopDisarmsAndKeepsTheRing :=
  ⟨issuedAs_of_only rfl fun _ => rfl, fun _ => ⟨_, rfl, rfl, rfl, rfl, rfl, rfl, rfl, rfl⟩⟩

/-- Settles O25, by whether the receiver is armed. -/
theorem rxStartArmsOrFaults : Obligations.RxStartArmsOrFaults :=
  ⟨issuedAs_of_only rfl fun _ => rfl, fun _ => ⟨exec_rxStart_of_armed,
    fun ha => ⟨_, exec_rxStart_of_disarmed ha, rfl, rfl, rfl, rfl, rfl, rfl, rfl, rfl⟩⟩⟩

/-- Settles O26: the operation is a pop, by whether the ring is empty. -/
theorem rxPollTakesOneByte : Obligations.RxPollTakesOneByte :=
  ⟨issuedAs_of_only rfl fun _ => rfl, fun s =>
    ⟨fun hempty => exec_rxPoll (State.popByte_of_empty (s := s) (q := .rx) hempty),
      fun hbyte => exec_rxPoll (State.popByte_of_byte (s := s) (q := .rx) hbyte)⟩⟩

/-- Settles O29: the next step of a read is a poll, by what it finds and the polls left. -/
theorem everyReadPollEndsOrCountsDown : Obligations.EveryReadPollEndsOrCountsDown := by
  intro s n left hp
  rw [State.continuePoll_of_reading hp]
  refine ⟨fun hbyte => State.readPoll_of_byte hbyte n left, fun hempty hl => ?_, fun hempty hl => ?_⟩
  · subst hl
    exact State.readPoll_last_of_empty hempty n
  · obtain ⟨k, rfl⟩ := Nat.exists_eq_succ_of_ne_zero hl
    exact State.readPoll_succ_of_empty hempty n k

/-- Settles O55, operation by operation: each only returns `Ok`. -/
theorem disarmedUnitsAreQuiescent : Obligations.DisarmedUnitsAreQuiescent := by
  intro s hrx htx i hi
  rcases hi with ⟨d, rfl⟩ | rfl | rfl
  · exact ⟨_, exec_rxEdge_of_disarmed hrx d, rfl⟩
  · exact ⟨_, exec_btClk_of_disarmed htx, rfl⟩
  · exact ⟨_, exec_txTick_of_disarmed htx, rfl⟩

end Sys2Proof.Receiver
end

section
/-! SUPPORT. The transmitter's operations case by case (spec/43_serial_transmitter.md R161 to R181): the
poll agent's operations, the tick that idles, every armed tick at once, and the bit timer clock by clock. -/

namespace Sys2Proof.Machine

/-! ### The poll agent's operations -/

theorem exec_txInit_of_armed {s : State} (ha : s.txArmed = true) (n : Half) :
    exec (.txInit n) s = .fault (.reinitWhileArmed .tx) := by
  simp [exec, execTxInit, ha]

theorem exec_txInit_of_disarmed {s : State} (ha : s.txArmed = false) (n : Half) :
    exec (.txInit n) s = .next { s with
      btCompare := n, btCount := 0, tx := s.tx.reset, txState := 0, txShift := 0, txLine := true
      txArmed := true, returned := some .ok } := by
  simp only [exec, execTxInit, ha]
  rfl

/-- `TX_ENQUEUE` is the push primitive on the TX ring (R163). -/
theorem exec_txEnqueue (b : Byte) (s : State) : exec (.txEnqueue b) s = exec (.rbPush .tx b) s := rfl

/-! ### Every armed tick -/

theorem State.betweenBytes_iff {s : State} : s.BetweenBytes ↔
    s.txState.toNat = 0 ∨ (s.txState.toNat = 9 ∧ s.cfg.stopBits = .one) ∨ s.txState.toNat = 10 := by
  simp [State.BetweenBytes, BitVec.toNat_eq]

/-- Between bytes with none queued, the tick idles at mark (R172). -/
theorem exec_txTick_idle {s : State} (ha : s.txArmed = true) (hb : s.BetweenBytes)
    (hempty : s.tx.isEmpty s.cfg.txCapLog2 = true) :
    exec .txTick s = .next (s.withTx (s.tickCount + 1) s.tx 0 s.txShift true) := by
  rw [exec_txTick_of_armed ha (State.txArm_of_betweenBytes (s := s.countTick) hb)]
  rcases s.countTick.nextByte_cases with ⟨_, e⟩ | ⟨hbyte, _⟩
  · rw [e]
    rfl
  · exact absurd (hempty.symm.trans hbyte) (by decide)

/-- Every armed tick in one of the eleven states adds 1 to `tick_count` and writes the transmitter's
registers, at values that do not depend on the last result (R171, R180). -/
theorem exec_txTick_withTx {s : State} (ha : s.txArmed = true) (h10 : s.txState.toNat ≤ 10) :
    ∃ r p v l, ∀ x, exec .txTick { s with returned := x } =
      .next (s.withTx (s.tickCount + 1) r p v l) := by
  rcases s.txArm_cases with ⟨hnext, _⟩ | ⟨h1, h7, _⟩ | ⟨h8, _⟩ | ⟨h9, htwo, _⟩ | ⟨h11, _⟩
  · have hb : s.BetweenBytes := State.betweenBytes_iff.mpr hnext
    cases hring : s.tx.isEmpty s.cfg.txCapLog2 with
    | true => exact ⟨_, _, _, _, fun x => exec_txTick_idle (s := { s with returned := x }) ha hb hring⟩
    | false =>
      exact ⟨s.tx.advance s.cfg.txCapLog2, 1, s.tx.oldest s.cfg.txCapLog2 .tx, false,
        fun x => exec_txTick_start (s := { s with returned := x }) ha hb hring⟩
  · exact ⟨s.tx, s.txState + 1, s.txShift >>> 1, s.txShift.getLsbD 0,
      fun x => exec_txTick_data (s := { s with returned := x }) ha h1 h7⟩
  · exact ⟨_, _, _, _, fun x =>
      exec_txTick_stop (s := { s with returned := x }) ha (BitVec.eq_of_toNat_eq h8)⟩
  · exact ⟨_, _, _, _, fun x =>
      exec_txTick_extraStop (s := { s with returned := x }) ha (BitVec.eq_of_toNat_eq h9) htwo⟩
  · omega

/-! ### The bit timer -/

theorem exec_btClk_count {s : State} (ha : s.txArmed = true) (hne : s.btCount ≠ s.btCompare) :
    exec .btClk s = .next { s with btCount := s.btCount + 1, returned := some .ok } := by
  have hmatch : s.timerMatch = false := beq_eq_false_iff_ne.mpr hne
  simp only [exec, execBtClk, ha, hmatch]
  rfl

/-- At the compare value the timer clock is the tick at the cleared counter, fault and all (R170). -/
theorem exec_btClk_tick {s : State} (ha : s.txArmed = true) (heq : s.btCount = s.btCompare) :
    exec .btClk s = exec .txTick s.clearBtCount := by
  have hmatch : s.timerMatch = true := beq_iff_eq.mpr heq
  simp only [exec, execBtClk, execTxTick, ha, hmatch, if_true]

theorem runClocks_succ {s t : State} (h : exec .btClk s = .next t) (k : Nat) :
    runClocks (k + 1) s = runClocks k t := by
  simp only [runClocks, h]

/-- Clocks that do not pass the compare value only count (R170). -/
theorem runClocks_count (k : Nat) {s : State} (ha : s.txArmed = true)
    (hle : s.btCount.toNat + (k + 1) ≤ s.btCompare.toNat) : runClocks (k + 1) s =
      some { s with btCount := s.btCount + BitVec.ofNat 16 (k + 1), returned := some .ok } := by
  induction k generalizing s with
  | zero => rw [runClocks_succ (exec_btClk_count ha (by bv_omega))]; rfl
  | succ k ih =>
    have hcount : (s.btCount + 1).toNat = s.btCount.toNat + 1 := by bv_omega
    have hsum : s.btCount + 1 + BitVec.ofNat 16 (k + 1) = s.btCount + BitVec.ofNat 16 (k + 1 + 1) := by
      bv_omega
    rw [runClocks_succ (exec_btClk_count ha (by bv_omega)),
      ih (s := { s with btCount := s.btCount + 1, returned := some .ok }) ha (by dsimp only; omega), hsum]

/-- The clock after those that reach the compare value is the tick at the cleared counter, for a tick that
does not depend on the last result, which the clocks before it have written (R170). -/
theorem runClocks_tick (k : Nat) {s t : State} (ha : s.txArmed = true)
    (hk : s.btCount.toNat + k = s.btCompare.toNat)
    (ht : ∀ x, exec .txTick { s.clearBtCount with returned := x } = .next t) :
    runClocks (k + 1) s = some t := by
  induction k generalizing s with
  | zero => exact runClocks_succ ((exec_btClk_tick ha (BitVec.eq_of_toNat_eq hk)).trans (ht s.returned)) 0
  | succ k ih =>
    have hcount : (s.btCount + 1).toNat = s.btCount.toNat + 1 := by bv_omega
    rw [runClocks_succ (exec_btClk_count ha (by bv_omega))]
    exact ih (s := { s with btCount := s.btCount + 1, returned := some .ok }) ha
      (by dsimp only; omega) ht

end Sys2Proof.Machine
end

section
/-! SUPPORT. An `ENC_SEND` whose packet has room in the TX ring, step by step
(spec/44_packet_encoder.md R191 to R193): the check step, the pushes, the commit. -/

namespace Sys2Proof.Machine

/-! ### Stores into a ring with room -/

/-- The ring after a push of each byte in turn, each with room (R112). -/
def Ring.storeAll (n : Nat) (r : Ring) (bs : List Byte) : Ring := bs.foldl (Ring.store n) r

theorem Ring.storeAll_ovf (n : Nat) (r : Ring) (bs : List Byte) : (r.storeAll n bs).ovf = r.ovf := by
  induction bs generalizing r with
  | nil => rfl
  | cons b bs ih => exact ih (r.store n b)

/-- A store where there is room leaves one place less. -/
theorem Ring.Ok.count_store {n : Nat} {r : Ring} (h : r.Ok n) (hlt : r.count n < cap n) (b : Byte) :
    (r.store n b).count n = r.count n + 1 := by
  obtain ⟨hh, ht, _, _, _, _⟩ := h
  exact Ring.count_store hh ht hlt b

/-- Bytes that fit join the queue in order, and the ring stays legal (R115). -/
theorem Ring.storeAll_of_room (bs : List Byte) {n : Nat} {r : Ring} (h : r.Ok n)
    (hroom : r.count n + bs.length ≤ cap n) (q : RingId) :
    (r.storeAll n bs).Ok n ∧ (r.storeAll n bs).contents n q = r.contents n q ++ bs := by
  induction bs generalizing r with
  | nil => exact ⟨h, (List.append_nil _).symm⟩
  | cons b bs ih =>
    rw [List.length_cons] at hroom
    have hlt : r.count n < cap n := by omega
    have hone : r.isFull n = false := Ring.isFull_eq_false.mpr hlt.ne
    obtain ⟨hok, hqueue⟩ := ih (Ring.ok_store h hone b) (by rw [h.count_store hlt]; omega)
    refine ⟨hok, hqueue.trans ?_⟩
    rw [Ring.contents_store h hone, List.append_assoc, List.singleton_append]

/-! ### The steps of a send -/

theorem State.sendDue_iff {s : State} : s.sendDue = true ↔ packetPeriod s.cfg ≤ s.sinceSend := by
  simp [State.sendDue]

/-- The check step of a send that is due and has something to send (R191). -/
theorem exec_encSend_of_due {s : State} (hdue : s.sendDue = true) (hworth : s.worthSending = true) :
    exec .encSend s = .next { s with poll := .sending s.tickCount s.packet 0, returned := none } := by
  simp only [exec, execEncSend, hdue, hworth]
  rfl

theorem continueN_add (m n : Nat) (s : State) : continueN (m + n) s = continueN n (continueN m s) := by
  induction m generalizing s with
  | zero => rw [Nat.zero_add]; rfl
  | succ m ih => rw [Nat.succ_add]; exact ih s.continuePoll

/-- The push steps of bytes that fit store them and count them (R191). -/
theorem continueN_push_of_room (bs rest : List Byte) {s : State} (h : s.tx.Ok s.cfg.txCapLog2)
    (hroom : s.tx.count s.cfg.txCapLog2 + bs.length ≤ cap s.cfg.txCapLog2) (ts : Word) (k : Nat) :
    continueN bs.length { s with poll := .sending ts (bs ++ rest) k, returned := none } = { s with
      tx := s.tx.storeAll s.cfg.txCapLog2 bs
      poll := .sending ts rest (k + bs.length)
      returned := none } := by
  induction bs generalizing s k with
  | nil => rfl
  | cons b bs ih =>
    rw [List.length_cons] at hroom
    have hlt : s.tx.count s.cfg.txCapLog2 < cap s.cfg.txCapLog2 := by omega
    have hone : s.tx.isFull s.cfg.txCapLog2 = false := Ring.isFull_eq_false.mpr hlt.ne
    have hpush : State.continuePoll
          { s with poll := .sending ts (b :: bs ++ rest) k, returned := none } =
        { s with
          tx := s.tx.store s.cfg.txCapLog2 b
          poll := .sending ts (bs ++ rest) (k + 1)
          returned := none } := by
      rw [State.continuePoll_of_push rfl]
      rcases State.sendPush_cases { s with poll := .sending ts (b :: bs ++ rest) k, returned := none }
        ts b (bs ++ rest) k with ⟨_, e⟩ | ⟨hfull, _⟩
      · exact e
      · exact absurd (hfull.symm.trans hone) (by decide)
    have hrest := ih (s := { s with tx := s.tx.store s.cfg.txCapLog2 b }) (Ring.ok_store h hone b)
      (by dsimp only; rw [h.count_store hlt]; omega) (k + 1)
    rw [List.length_cons, continueN, hpush, hrest, Nat.succ_add_eq_add_succ]
    rfl

/-- A packet that fits is stored whole, and its commit returns `Sent` of its length (R191, R193). -/
theorem continueN_send_of_room (bs : List Byte) {s : State} (h : s.tx.Ok s.cfg.txCapLog2)
    (hroom : s.tx.count s.cfg.txCapLog2 + bs.length ≤ cap s.cfg.txCapLog2) (ts : Word) :
    continueN (bs.length + 1) { s with poll := .sending ts bs 0, returned := none } =
      State.sendCommit { s with tx := s.tx.storeAll s.cfg.txCapLog2 bs } ts bs.length := by
  have hpush := continueN_push_of_room bs [] h hroom ts 0
  rw [List.append_nil, Nat.zero_add] at hpush
  rw [continueN_add, hpush, continueN, State.continuePoll_of_commit rfl]
  rfl

/-- A packet fits into an empty TX ring of any capacity the configuration may have (R8, R11). -/
theorem pktLen_le_cap (m : Mode) {n : Nat} (hn : 2 ≤ n) : pktLen m ≤ cap n := by
  calc pktLen m ≤ 2 ^ 2 := by cases m <;> decide
    _ ≤ cap n := Nat.pow_le_pow_right (by decide) hn

end Sys2Proof.Machine
end

section
/-! CERTIFICATES. The statements of spec/43_serial_transmitter.md about the bit timer, single ticks and the
poll agent's operations, and R201's of spec/44_packet_encoder.md about a packet's way through the
transmitter. -/

namespace Sys2Proof.Transmitter

open Sys2Proof.Machine

/-- Settles O34: clocks count until the compare value, and the tick there does not see that they did. -/
theorem firstTickComesAfterCompareClocks : Obligations.FirstTickComesAfterCompareClocks := by
  intro s ha h0 h10
  have hzero : s.btCount.toNat = 0 := by rw [h0]; rfl
  have hclear : s.clearBtCount = s := by rw [State.clearBtCount, ← h0]
  refine ⟨fun k hpos hk => ?_, ?_⟩
  · obtain ⟨j, rfl⟩ := Nat.exists_eq_succ_of_ne_zero hpos.ne'
    have hsum : s.btCount + BitVec.ofNat 16 (j + 1) = BitVec.ofNat 16 (j + 1) := by
      rw [h0]
      exact BitVec.zero_add _
    rw [runClocks_count j ha (by omega), hsum]
  · obtain ⟨r, p, v, l, htick⟩ := exec_txTick_withTx ha h10
    have hcleared : ∀ x, exec .txTick { s.clearBtCount with returned := x } =
        .next (s.withTx (s.tickCount + 1) r p v l) := by
      rw [hclear]
      exact htick
    exact ⟨_, runClocks_tick s.btCompare.toNat ha (by omega) hcleared, h0, rfl, htick s.returned⟩

/-- Settles O42: the empty ring has room for the packet, and its bytes leave as their frames. -/
theorem packetLeavesWithinOnePeriod : Obligations.PacketLeavesWithinOnePeriod := by
  intro s hs ha hb hnil hdue hworth
  obtain ⟨_, hcap, _⟩ := hs.cfg
  have hlen : s.packet.length = pktLen s.cfg.mode := length_encodePacket ..
  have hcount : s.tx.count s.cfg.txCapLog2 = 0 := by rw [← Ring.length_contents _ .tx, hnil]; rfl
  have hroom : s.tx.count s.cfg.txCapLog2 + s.packet.length ≤ cap s.cfg.txCapLog2 := by
    rw [hcount, hlen, Nat.zero_add]
    exact pktLen_le_cap _ hcap
  have hsend := continueN_send_of_room s.packet hs.tx hroom s.tickCount
  obtain ⟨hok, hqueue⟩ := Ring.storeAll_of_room s.packet hs.tx hroom .tx
  rw [hnil, List.nil_append] at hqueue
  obtain ⟨v, hrun, hempty, _, hstate⟩ := runTicks_queue s.packet
    (s := State.sendCommit { s with tx := s.tx.storeAll s.cfg.txCapLog2 s.packet } s.tickCount
      s.packet.length) ha hb hok hqueue
  rw [hlen] at hsend hrun
  refine ⟨_, _, v, _, exec_encSend_of_due (State.sendDue_iff.mpr hdue) hworth, rfl, ?_, ?_,
    (congrArg _ hsend).trans hrun, hempty, ?_⟩
  · rw [hsend]
    rfl
  · rw [hsend]
    exact Ring.storeAll_ovf ..
  · have hlast : v.txState = lastStopState s.cfg := hstate
    rw [hlast, lastStopState]
    cases s.cfg.stopBits with
    | one => exact .inl ⟨rfl, rfl⟩
    | two => exact .inr rfl

/-- Settles O30, by whether the transmitter is armed. -/
theorem txInitArmsOrFaults : Obligations.TxInitArmsOrFaults := by
  intro n s
  exact ⟨issuedAs_of_only rfl fun _ => rfl, fun ha => exec_txInit_of_armed ha n,
    fun ha => ⟨_, exec_txInit_of_disarmed ha n, rfl, rfl, rfl, rfl, rfl, rfl, rfl, rfl, rfl⟩⟩

/-- Settles O31: the operation writes the frame state, the timer's counter and `tx_armed` alone. -/
theorem txTeardownQuietsTheLine : Obligations.TxTeardownQuietsTheLine :=
  ⟨issuedAs_of_only rfl fun _ => rfl, fun _ => ⟨_, rfl, rfl, rfl, rfl, rfl, rfl, rfl, rfl, rfl⟩⟩

/-- Settles O32: both operations return the answer of the one push, by whether the ring has room. -/
theorem txEnqueueIsOnePush : Obligations.TxEnqueueIsOnePush := by
  intro b s
  refine ⟨issuedAs_of_only rfl fun _ => rfl, ?_⟩
  rw [exec_txEnqueue]
  rcases s.pushByte_cases .tx b with ⟨hfull, e⟩ | ⟨hroom, e⟩
  · have hcount := Ring.isFull_iff.mp hfull
    exact ⟨_, exec_rbPush e, exec_rbPush e, fun hne => absurd hcount hne, fun _ => rfl⟩
  · have hcount := Ring.isFull_eq_false.mp hroom
    exact ⟨_, exec_rbPush e, exec_rbPush e, fun _ => rfl, fun heq => absurd heq hcount⟩

/-- Settles O33, by the arming and the compare value. -/
theorem timerClockCountsOrTicks : Obligations.TimerClockCountsOrTicks := by
  intro s
  refine ⟨exec_btClk_of_disarmed, exec_btClk_count, fun ha heq h10 => ?_⟩
  obtain ⟨r, p, v, l, htick⟩ := exec_txTick_withTx (s := s.clearBtCount) ha h10
  exact ⟨_, (exec_btClk_tick ha heq).trans (htick s.returned), htick s.returned, rfl, rfl⟩

/-- Settles O35, state by state: each tick's equation gives the whole next state. -/
theorem tickShiftsTheByteOut : Obligations.TickShiftsTheByteOut := by
  intro s
  exact ⟨exec_txTick_of_disarmed, exec_txTick_data,
    fun ha h8 => exec_txTick_stop ha (BitVec.eq_of_toNat_eq h8),
    fun ha h9 htwo => exec_txTick_extraStop ha (BitVec.eq_of_toNat_eq h9) htwo⟩

/-- Settles O36: between bytes, by whether the ring is empty. -/
theorem tickStartsTheNextByteOrIdles : Obligations.TickStartsTheNextByteOrIdles := by
  intro s ha hnext
  have hb : s.BetweenBytes := State.betweenBytes_iff.mpr hnext
  exact ⟨fun hempty => exec_txTick_idle ha hb (Ring.isEmpty_iff.mpr hempty),
    fun hbyte => exec_txTick_start ha hb (Ring.isEmpty_eq_false.mpr hbyte)⟩

end Sys2Proof.Transmitter
end

section
/-! SUPPORT. The packet encoder's operations case by case (spec/44_packet_encoder.md R190 to R202): the
report, the check step of a send, the packet's bytes as numbers, and a send whose packet does not fit. -/

namespace Sys2Proof.Machine

/-! ### The report -/

/-- A clamped sum fits the 16-bit register, so the register holds it exactly (R13, R16). -/
theorem satAdd_toInt (a b : Half) :
    (satAdd a b).toInt = min (max (a.toInt + b.toInt) (-32767)) 32767 := by
  unfold satAdd clamp
  rw [BitVec.toInt_ofInt, Int.bmod_eq_of_le] <;> omega

theorem sext16_toInt (v : Byte) : (sext16 v).toInt = v.toInt :=
  BitVec.toInt_signExtend_of_le (by decide)

/-- A report's operand joins its sum in the integers, saturating (R190). -/
theorem satAdd_sext16_toInt (a : Half) (v : Byte) :
    (satAdd a (sext16 v)).toInt = min (max (a.toInt + v.toInt) (-32767)) 32767 := by
  rw [satAdd_toInt, sext16_toInt]

theorem buttonSet_getLsbD (l r m : Bool) : (buttonSet l r m).getLsbD 0 = l ∧
    (buttonSet l r m).getLsbD 1 = r ∧ (buttonSet l r m).getLsbD 2 = m := by
  revert l r m
  decide

/-- The report in WheelMouse mode (R190). -/
theorem exec_encReport_of_wheelMouse {s : State} (h : s.cfg.mode = .wheelMouse) (l r m : Bool)
    (dx dy wheel : Byte) :
    exec (.encReport l r m dx dy wheel) s = .next { s with
      accDx := satAdd s.accDx (sext16 dx), accDy := satAdd s.accDy (sext16 dy)
      accWheel := satAdd s.accWheel (sext16 wheel), curButtons := buttonSet l r m
      returned := some .ok } := by
  simp only [exec, execEncReport, h]
  rfl

/-- The report in the modes without a wheel (R190). -/
theorem exec_encReport_of_ne_wheelMouse {s : State} (h : s.cfg.mode ≠ .wheelMouse) (l r m : Bool)
    (dx dy wheel : Byte) :
    exec (.encReport l r m dx dy wheel) s = .next { s with
      accDx := satAdd s.accDx (sext16 dx), accDy := satAdd s.accDy (sext16 dy)
      curButtons := buttonSet l r m, returned := some .ok } := by
  simp only [exec, execEncReport]
  cases hm : s.cfg.mode with
  | wheelMouse => exact absurd hm h
  | twoButton | threeButton => rfl

/-! ### The check step of a send -/

/-- What is worth a packet: motion, the wheel's only in WheelMouse mode, or other buttons (R191). -/
theorem State.worthSending_iff {s : State} : s.worthSending = true ↔
    s.accDx ≠ 0 ∨ s.accDy ≠ 0 ∨ (s.cfg.mode = .wheelMouse ∧ s.accWheel ≠ 0) ∨
      s.curButtons ≠ s.lastButtons := by
  simp [State.worthSending, State.moving, or_assoc]

theorem exec_encSend_of_not_due {s : State} (h : s.sendDue = false) :
    exec .encSend s = .next (s.ret .notDue) := by
  simp [exec, execEncSend, h]

theorem exec_encSend_of_nothing {s : State} (hdue : s.sendDue = true) (h : s.worthSending = false) :
    exec .encSend s = .next (s.ret .suppressed) := by
  simp [exec, execEncSend, hdue, h]

/-! ### The packet's bytes as numbers -/

/-- The pattern of a delta is its clamped value modulo 256 (R194, R195). -/
theorem delta8_toNat (v : Int) : ((delta8 v).toNat : Int) = min (max v (-127)) 127 % 256 := by
  unfold delta8 clamp
  rw [BitVec.toNat_ofInt]
  omega

/-- Values at or past the same bound have one pattern (R195). -/
theorem delta8_eq_of_beyond {v w : Int} (h : 127 ≤ v ∧ 127 ≤ w ∨ v ≤ -127 ∧ w ≤ -127) :
    delta8 v = delta8 w := by
  have hclamp : clamp v (-127) 127 = clamp w (-127) 127 := by unfold clamp; omega
  rw [delta8, hclamp, delta8]

/-- A packet depends on the motion sums through the patterns of the two deltas alone (R194). -/
theorem encodePacket_congr {ax ay ax' ay' : Half} (hx : delta8 ax.toInt = delta8 ax'.toInt)
    (hy : delta8 (-ay.toInt) = delta8 (-ay'.toInt)) (mode : Mode) (buttons : Buttons) (aw : Half) :
    encodePacket mode buttons ax ay aw = encodePacket mode buttons ax' ay' aw := by
  simp only [encodePacket, hx, hy]

/-- The fields of `byte0` do not overlap, so their union is their sum. -/
theorem packetByte0_fields_toNat : ∀ (l r : Bool) (x y : BitVec 2),
    ((0x40 : Byte) ||| (BitVec.ofBool l).setWidth 8 <<< 5 ||| (BitVec.ofBool r).setWidth 8 <<< 4
      ||| y.setWidth 8 <<< 2 ||| x.setWidth 8).toNat =
    0x40 + (if l then 0x20 else 0) + (if r then 0x10 else 0) + 4 * y.toNat + x.toNat := by
  decide

theorem extractLsb'_top_toNat (d8 : Byte) : (d8.extractLsb' 6 2).toNat = d8.toNat / 64 := by
  rw [BitVec.extractLsb'_toNat, Nat.shiftRight_eq_div_pow]
  omega

theorem packetByte0_toNat (buttons : Buttons) (dx8 dy8 : Byte) :
    (packetByte0 buttons dx8 dy8).toNat = 0x40 + (if buttons.getLsbD 0 then 0x20 else 0)
      + (if buttons.getLsbD 1 then 0x10 else 0) + 4 * (dy8.toNat / 64) + dx8.toNat / 64 := by
  rw [← extractLsb'_top_toNat, ← extractLsb'_top_toNat]
  exact packetByte0_fields_toNat ..

theorem packetLow_toNat (d8 : Byte) : (packetLow d8).toNat = d8.toNat % 64 := by
  rw [packetLow, BitVec.toNat_setWidth, BitVec.extractLsb'_toNat, Nat.shiftRight_zero]
  omega

/-- In ThreeButton mode the middle button stands at bit 5 (R198). -/
theorem packetMiddle_toNat (m : Bool) :
    ((BitVec.ofBool m).setWidth 8 <<< 5 : Byte).toNat = if m then 0x20 else 0 := by
  cases m <;> rfl

/-- In WheelMouse mode the middle button at bit 4 is above the wheel's four bits (R199). -/
theorem packetMiddleWheel_fields_toNat : ∀ (m : Bool) (w : BitVec 4),
    ((BitVec.ofBool m).setWidth 8 <<< 4 ||| w.setWidth 8 : Byte).toNat =
      (if m then 0x10 else 0) + w.toNat := by
  decide

/-- The low four bits of a sum are its value modulo 16, negative sums included (R199). -/
theorem wheelBits_toNat (aw : Half) : ((aw.extractLsb' 0 4).toNat : Int) = aw.toInt % 16 := by
  rw [BitVec.extractLsb'_toNat, Nat.shiftRight_zero, BitVec.toInt_eq_toNat_cond]
  split <;> omega

theorem packetMiddleWheel_toNat (m : Bool) (aw : Half) :
    (((BitVec.ofBool m).setWidth 8 <<< 4 ||| (aw.extractLsb' 0 4).setWidth 8 : Byte).toNat : Int) =
      (if m then 0x10 else 0) + aw.toInt % 16 := by
  rw [packetMiddleWheel_fields_toNat, ← wheelBits_toNat]
  cases m <;> rfl

/-! ### Pushes onto a full ring -/

/-- The ring after `m` pushes onto it when it is full: each is counted, none is stored (R112). -/
def Ring.dropMany (m : Nat) (r : Ring) : Ring := { r with ovf := satInc16^[m] r.ovf }

/-- The counter of `m` drops saturates at its last value (R16, R30). -/
theorem Ring.dropMany_ovf_toNat (m : Nat) (r : Ring) :
    (r.dropMany m).ovf.toNat = min (r.ovf.toNat + m) 0xFFFF := by
  change (satInc16^[m] r.ovf).toNat = _
  induction m with
  | zero =>
    have := r.ovf.isLt
    simp only [Function.iterate_zero, id]
    omega
  | succ m ih =>
    rw [Function.iterate_succ_apply', satInc16_toNat, ih]
    omega

@[simp] theorem Ring.contents_dropMany (m n : Nat) (q : RingId) (r : Ring) :
    (r.dropMany m).contents n q = r.contents n q := rfl

theorem Ring.storeAll_tail (n : Nat) (r : Ring) (bs : List Byte) :
    (r.storeAll n bs).tail = r.tail := by
  induction bs generalizing r with
  | nil => rfl
  | cons b bs ih => exact ih (r.store n b)

/-! ### A send into a ring of any fill -/

/-- The push steps of bytes for which there is no room count and report them (R112, R191). -/
theorem continueN_push_of_full (bs rest : List Byte) {s : State}
    (hfull : bs ≠ [] → s.tx.isFull s.cfg.txCapLog2 = true) (ts : Word) (k : Nat) :
    continueN bs.length { s with poll := .sending ts (bs ++ rest) k, returned := none } = { s with
      tx := s.tx.dropMany bs.length
      poll := .sending ts rest k
      events := s.events ++ bs.map (.overflow .tx)
      returned := none } := by
  induction bs generalizing s with
  | nil => simp [continueN, Ring.dropMany]
  | cons b bs ih =>
    have hnow : s.tx.isFull s.cfg.txCapLog2 = true := hfull (List.cons_ne_nil b bs)
    have hpush : State.continuePoll
          { s with poll := .sending ts (b :: bs ++ rest) k, returned := none } =
        { s with
          tx := s.tx.drop
          poll := .sending ts (bs ++ rest) k
          events := s.events ++ [.overflow .tx b]
          returned := none } := by
      rw [State.continuePoll_of_push rfl]
      rcases State.sendPush_cases { s with poll := .sending ts (b :: bs ++ rest) k, returned := none }
        ts b (bs ++ rest) k with ⟨hroom, _⟩ | ⟨_, e⟩
      · exact absurd (hroom.symm.trans hnow) (by decide)
      · exact e
    have hrest := ih (s := { s with tx := s.tx.drop, events := s.events ++ [.overflow .tx b] })
      (fun _ => hnow)
    rw [List.length_cons, continueN, hpush, hrest, List.map_cons, ← List.append_cons]
    rfl

/-- A packet of which `k` bytes have room: these are stored, the others counted and reported, and the
commit returns `Sent` of `k` (R191, R193). -/
theorem continueN_send (bs : List Byte) {s : State} (h : s.tx.Ok s.cfg.txCapLog2) {k : Nat}
    (hk : k = min bs.length (cap s.cfg.txCapLog2 - s.tx.count s.cfg.txCapLog2)) (ts : Word) :
    continueN (bs.length + 1) { s with poll := .sending ts bs 0, returned := none } =
      State.sendCommit { s with
        tx := (s.tx.storeAll s.cfg.txCapLog2 (bs.take k)).dropMany (bs.length - k)
        events := s.events ++ (bs.drop k).map (.overflow .tx) } ts k := by
  have hstored : (bs.take k).length = k := List.length_take_of_le (by omega)
  have hroom : s.tx.count s.cfg.txCapLog2 + (bs.take k).length ≤ cap s.cfg.txCapLog2 := by
    have := h.count_le
    omega
  obtain ⟨_, hqueue⟩ := Ring.storeAll_of_room (bs.take k) h hroom .tx
  have hcount := congrArg List.length hqueue
  rw [List.length_append, Ring.length_contents, Ring.length_contents, hstored] at hcount
  have hfull : bs.drop k ≠ [] →
      (s.tx.storeAll s.cfg.txCapLog2 (bs.take k)).isFull s.cfg.txCapLog2 = true := fun hne => by
    have := List.length_pos_of_ne_nil hne
    rw [List.length_drop] at this
    exact Ring.isFull_iff.mpr (by omega)
  have hpush := continueN_push_of_room (bs.take k) (bs.drop k) h hroom ts 0
  have hdrop := continueN_push_of_full (bs.drop k) []
    (s := { s with tx := s.tx.storeAll s.cfg.txCapLog2 (bs.take k) }) hfull ts k
  rw [List.take_append_drop, hstored, Nat.zero_add] at hpush
  rw [List.append_nil, List.length_drop] at hdrop
  have hsteps : bs.length + 1 = k + (bs.length - k) + 1 := by omega
  rw [hsteps, continueN_add, continueN_add, hpush, hdrop, continueN,
    State.continuePoll_of_commit rfl]
  rfl

end Sys2Proof.Machine
end

section
/-! CERTIFICATES. The statements of spec/44_packet_encoder.md about the report, the send, the packet's
bytes and the encoder's reset (R190 to R202). -/

namespace Sys2Proof.PacketEncoder

open Sys2Proof.Machine

/-- Settles O38: in every mode the sums are saturating integer sums, by whether the mode has a wheel. -/
theorem reportAccumulatesSaturating : Obligations.ReportAccumulatesSaturating := by
  intro l r m dx dy wheel s
  obtain ⟨hl, hr, hm⟩ := buttonSet_getLsbD l r m
  refine ⟨issuedAs_of_only ?_ fun _ => rfl, ?_⟩
  · simp only [encode, bitAt_eq_ofBool_shiftLeft]
  · by_cases hmode : s.cfg.mode = .wheelMouse
    · exact ⟨_, exec_encReport_of_wheelMouse hmode .., satAdd_sext16_toInt .., satAdd_sext16_toInt ..,
        fun _ => satAdd_sext16_toInt .., fun hne => absurd hmode hne, hl, hr, hm, rfl, rfl⟩
    · exact ⟨_, exec_encReport_of_ne_wheelMouse hmode .., satAdd_sext16_toInt ..,
        satAdd_sext16_toInt .., fun h => absurd h hmode, fun _ => rfl, hl, hr, hm, rfl, rfl⟩

/-- Settles O41: the bytes that fit join the queue, the others are counted, and the commit does the rest. -/
theorem sendStoresWhatFitsAndCommits : Obligations.SendStoresWhatFitsAndCommits := by
  intro s hs hdue hworth
  obtain ⟨k, hk⟩ : ∃ k, k = min (pktLen s.cfg.mode) (2 ^ s.cfg.txCapLog2 - s.tx.count s.cfg.txCapLog2) :=
    ⟨_, rfl⟩
  have hlen : s.packet.length = pktLen s.cfg.mode := length_encodePacket ..
  have hsend := continueN_send s.packet hs.tx (k := k) (by rw [hlen]; exact hk) s.tickCount
  have hroom : s.tx.count s.cfg.txCapLog2 + (s.packet.take k).length ≤ cap s.cfg.txCapLog2 := by
    have hle : s.tx.count s.cfg.txCapLog2 ≤ 2 ^ s.cfg.txCapLog2 := hs.tx.count_le
    rw [List.length_take, cap]
    omega
  obtain ⟨_, hqueue⟩ := Ring.storeAll_of_room (s.packet.take k) hs.tx hroom .tx
  rw [hlen] at hsend
  refine ⟨_, _, exec_encSend_of_due (State.sendDue_iff.mpr hdue) hworth, hsend.symm, k, hk,
    (Ring.contents_dropMany ..).trans hqueue, Ring.storeAll_tail .., ?_, rfl, rfl, rfl, rfl, rfl, rfl, rfl, rfl,
    rfl⟩
  exact (Ring.dropMany_ovf_toNat ..).trans (by rw [Ring.storeAll_ovf])

/-- Settles O44, byte by byte: a delta's pattern is its value modulo 256, and the fields are disjoint. -/
theorem packetBytesAreTheFormulas : Obligations.PacketBytesAreTheFormulas := by
  intro mode bt ax ay aw
  have hx := delta8_toNat ax.toInt
  have hy := delta8_toNat (-ay.toInt)
  refine ⟨_, _, packetByte0 bt (delta8 ax.toInt) (delta8 (-ay.toInt)), packetLow (delta8 ax.toInt),
    packetLow (delta8 (-ay.toInt)), (packetByte3 mode bt aw).headD 0, rfl, rfl, ?_, ?_, ?_, ?_, ?_, ?_⟩
  · rw [packetByte0_toNat]
    push_cast
    rw [hx, hy]
    omega
  · rw [packetLow_toNat]
    omega
  · rw [packetLow_toNat]
    omega
  · rintro rfl
    rfl
  · rintro rfl
    exact ⟨packetMiddle_toNat _, rfl⟩
  · rintro rfl
    exact ⟨packetMiddleWheel_toNat .., rfl⟩

/-- Settles O46: past the clamp the delta's pattern is the bound's, negated for the second sum. -/
theorem motionBeyondTheClampIsLost : Obligations.MotionBeyondTheClampIsLost := by
  intro mode bt ax ay aw
  have hmax : (127 : Half).toInt = 127 := by decide
  have hmin : (-127 : Half).toInt = -127 := by decide
  exact ⟨fun h => encodePacket_congr (delta8_eq_of_beyond (by omega)) rfl ..,
    fun h => encodePacket_congr (delta8_eq_of_beyond (by omega)) rfl ..,
    fun h => encodePacket_congr rfl (delta8_eq_of_beyond (by omega)) ..,
    fun h => encodePacket_congr rfl (delta8_eq_of_beyond (by omega)) ..⟩

/-- Settles O39, by the check step's two answers without a packet. -/
theorem sendIsThrottledAndSuppressed : Obligations.SendIsThrottledAndSuppressed := by
  intro s
  refine ⟨fun hearly => exec_encSend_of_not_due ?_, fun hdue hx hy hw hb => ?_⟩
  · exact Bool.eq_false_iff.mpr fun h => absurd (State.sendDue_iff.mp h) (Nat.not_le.mpr hearly)
  · refine exec_encSend_of_nothing (State.sendDue_iff.mpr hdue) (Bool.eq_false_iff.mpr fun h => ?_)
    rcases State.worthSending_iff.mp h with hne | hne | ⟨hm, hne⟩ | hne
    · exact hne hx
    · exact hne hy
    · exact hne (hw hm)
    · exact hne hb

/-- Settles O40: the statement's two premises are the check step's two conditions. -/
theorem dueSendFixesItsPacket : Obligations.DueSendFixesItsPacket := by
  intro s hdue hworth
  exact exec_encSend_of_due (State.sendDue_iff.mpr hdue) (State.worthSending_iff.mpr hworth)

/-- Settles O43: with no byte left to push the next step is the commit. -/
theorem commitClearsTheAggregate : Obligations.CommitClearsTheAggregate := by
  intro s ts k hp
  exact ⟨_, State.continuePoll_of_commit hp, rfl, rfl, rfl, rfl, rfl, rfl, rfl, rfl⟩

/-- Settles O47: the operation writes the aggregate and the send tick alone. -/
theorem encResetClearsTheAggregate : Obligations.EncResetClearsTheAggregate :=
  ⟨issuedAs_of_only rfl fun _ => rfl, fun _ => ⟨_, rfl, rfl, rfl, rfl, rfl, rfl, rfl, rfl, rfl⟩⟩

end Sys2Proof.PacketEncoder
end

section
/-! SUPPORT. The faults of spec/60_exceptions.md R226 and R227: which operation raises which fault, and in
which state of its unit. -/

namespace Sys2Proof.Machine

/-! ### The transitions that have no next state -/

theorem State.edgeArm_eq_none {s : State} {d : Bool} :
    s.edgeArm d = none ↔ 11 ≤ s.frame.bitpos.toNat := by
  refine ⟨fun h => ?_, fun hp => State.edgeArm_of_unreachable hp d⟩
  rcases s.edgeArm_cases d with ⟨_, e⟩ | ⟨_, _, e⟩ | ⟨_, e⟩ | ⟨_, e⟩ | ⟨hp, _⟩
  · cases e.symm.trans h
  · cases e.symm.trans h
  · cases e.symm.trans h
  · cases e.symm.trans h
  · exact hp

theorem State.txArm_eq_none {s : State} : s.txArm = none ↔ 11 ≤ s.txState.toNat := by
  refine ⟨fun h => ?_, State.txArm_of_unreachable⟩
  rcases s.txArm_cases with ⟨_, e⟩ | ⟨_, _, e⟩ | ⟨_, e⟩ | ⟨_, _, e⟩ | ⟨hp, _⟩
  · cases e.symm.trans h
  · cases e.symm.trans h
  · cases e.symm.trans h
  · cases e.symm.trans h
  · exact hp

/-! ### The operations that can fault -/

theorem exec_rxStart_fault {s : State} {f : Fault} (h : exec .rxStart s = .fault f) :
    s.rxArmed = true ∧ f = .reinitWhileArmed .rx := by
  cases ha : s.rxArmed with
  | false => cases (exec_rxStart_of_disarmed ha).symm.trans h
  | true => cases (exec_rxStart_of_armed ha).symm.trans h; exact ⟨rfl, rfl⟩

theorem exec_txInit_fault {s : State} {n : Half} {f : Fault} (h : exec (.txInit n) s = .fault f) :
    s.txArmed = true ∧ f = .reinitWhileArmed .tx := by
  cases ha : s.txArmed with
  | false => cases (exec_txInit_of_disarmed ha n).symm.trans h
  | true => cases (exec_txInit_of_armed ha n).symm.trans h; exact ⟨rfl, rfl⟩

theorem exec_rxEdge_fault {s : State} {d : Bool} {f : Fault} (h : exec (.rxEdge d) s = .fault f) :
    11 ≤ s.frame.bitpos.toNat ∧ f = .unreachableState .rxBitpos := by
  cases ha : s.rxArmed with
  | false => cases (exec_rxEdge_of_disarmed ha d).symm.trans h
  | true =>
    cases hedge : s.edgeArm d with
    | some t => cases (exec_rxEdge_of_armed ha hedge).symm.trans h
    | none =>
      have hp := State.edgeArm_eq_none.mp hedge
      cases (exec_rxEdge_of_unreachable ha hp d).symm.trans h
      exact ⟨hp, rfl⟩

/-- Counting the tick leaves `tx_state`, on which the fault turns, as it was (R171, R180). -/
theorem exec_txTick_fault {s : State} {f : Fault} (h : exec .txTick s = .fault f) :
    11 ≤ s.txState.toNat ∧ f = .unreachableState .txState := by
  cases ha : s.txArmed with
  | false => cases (exec_txTick_of_disarmed ha).symm.trans h
  | true =>
    cases harm : s.countTick.txArm with
    | some t => cases (exec_txTick_of_armed ha harm).symm.trans h
    | none =>
      have hp : 11 ≤ s.txState.toNat := State.txArm_eq_none (s := s.countTick).mp harm
      cases (exec_txTick_of_unreachable ha hp).symm.trans h
      exact ⟨hp, rfl⟩

/-- The timer clock's only fault is that of the tick it fires (R170, log 9). -/
theorem exec_btClk_fault {s : State} {f : Fault} (h : exec .btClk s = .fault f) :
    11 ≤ s.txState.toNat ∧ f = .unreachableState .txState := by
  cases ha : s.txArmed with
  | false => cases (exec_btClk_of_disarmed ha).symm.trans h
  | true =>
    by_cases hmatch : s.btCount = s.btCompare
    · exact exec_txTick_fault (s := s.clearBtCount) ((exec_btClk_tick ha hmatch).symm.trans h)
    · cases (exec_btClk_count ha hmatch).symm.trans h

/-! ### Every operation, every step -/

/-- Every fault an operation can raise, in any state: R226's two, each with its cause (R144, R171, R227). -/
theorem exec_fault_cases {i : Instr} {s : State} {f : Fault} (h : exec i s = .fault f) :
    (i = .rxStart ∧ s.rxArmed = true ∧ f = .reinitWhileArmed .rx) ∨
    (∃ n, i = .txInit n ∧ s.txArmed = true ∧ f = .reinitWhileArmed .tx) ∨
    (11 ≤ s.frame.bitpos.toNat ∧ f = .unreachableState .rxBitpos) ∨
    (11 ≤ s.txState.toNat ∧ f = .unreachableState .txState) := by
  cases i with
  | rxStart => exact .inl ⟨rfl, exec_rxStart_fault h⟩
  | txInit n => exact .inr (.inl ⟨n, rfl, exec_txInit_fault h⟩)
  | rxEdge d => exact .inr (.inr (.inl (exec_rxEdge_fault h)))
  | txTick => exact .inr (.inr (.inr (exec_txTick_fault h)))
  | btClk => exact .inr (.inr (.inr (exec_btClk_fault h)))
  | encSend =>
    cases hdue : s.sendDue with
    | false => cases (exec_encSend_of_not_due hdue).symm.trans h
    | true =>
      cases hworth : s.worthSending with
      | false => cases (exec_encSend_of_nothing hdue hworth).symm.trans h
      | true => cases (exec_encSend_of_due hdue hworth).symm.trans h
  | rxStop | rxPoll | rxRead | txTeardown | txEnqueue | encReport | encReset | rbReset | rbPush | rbPop
  | rbCount | reset => cases h

/-- In a legal state both sequencing registers hold one of their eleven states (R23, R36), so only the
re-initialisations are left (R227). -/
theorem exec_fault_of_inv {i : Instr} {s : State} {f : Fault} (hs : s.Inv) (h : exec i s = .fault f) :
    (i = .rxStart ∧ s.rxArmed = true ∧ f = .reinitWhileArmed .rx) ∨
    (∃ n, i = .txInit n ∧ s.txArmed = true ∧ f = .reinitWhileArmed .tx) := by
  obtain ⟨hbitpos, _⟩ := hs.frame
  obtain ⟨htxState, _⟩ := hs.txOk
  rcases exec_fault_cases h with hrx | htx | ⟨hp, _⟩ | ⟨hp, _⟩
  · exact .inl hrx
  · exact .inr htx
  · omega
  · omega

/-- A step that faults runs the operation whose word is issued (R226, R229): no turn without a word
faults. -/
theorem step_fault {s : State} {f : Fault} (h : step s = .fault f) :
    ∃ i, s.wordFor s.feed.nextIssuer = some (encode i) ∧
      exec i (s.issue s.feed.nextIssuer) = .fault f := by
  rcases step_cases s with ⟨_, e⟩ | ⟨_, _, _, e⟩ | ⟨_, _, _, _, _, _, e⟩ | ⟨w, i, hw, hd, _, e⟩ |
    ⟨_, _, e⟩ <;> rw [e] at h
  · cases h
  · cases h
  · cases h
  · exact ⟨i, by rw [hw, encode_of_decodeWord hd], h⟩
  · cases h

end Sys2Proof.Machine
end

section
/-! SUPPORT. A run step by step (spec/60_exceptions.md R220, R226, R228): one equation for each outcome of
a step, that a recorded fault stays, and that the refusals only grow. -/

namespace Sys2Proof.Machine

theorem Run.advance_of_faulted {r : Run} {x : FaultRecord} (h : r.fault = some x) : r.advance = r := by
  simp only [Run.advance, h]

theorem Run.advance_of_next {r : Run} {t : State} (h : r.fault = none) (hs : step r.state = .next t) :
    r.advance = { r with state := t } := by
  simp only [Run.advance, h, hs]

theorem Run.advance_of_fault {r : Run} {f : Fault} (h : r.fault = none)
    (hs : step r.state = .fault f) :
    r.advance =
      { r with fault := some { fault := f, code := f.code, word := r.state.nextWord } } := by
  simp only [Run.advance, h, hs]

theorem Run.advance_of_refused {r : Run} {q : Refusal} (h : r.fault = none)
    (hs : step r.state = .refused q) :
    r.advance = { r with
      state := r.state.skipRefused
      refusals := r.refusals ++ [{ refusal := q, word := r.state.nextWord }] } := by
  simp only [Run.advance, h, hs]

/-- A recorded fault is final, however often the run is advanced (R226). -/
theorem Run.advanceN_of_faulted (k : Nat) {r : Run} {x : FaultRecord} (h : r.fault = some x) :
    r.advanceN k = r := by
  induction k with
  | zero => rfl
  | succ k ih => rw [Run.advanceN, Run.advance_of_faulted h, ih]

/-- No step takes a refusal out of the record (R228). -/
theorem Run.refusals_prefix_advance (r : Run) : r.refusals <+: r.advance.refusals := by
  cases h : r.fault with
  | some x => rw [Run.advance_of_faulted h]
  | none =>
    cases hs : step r.state with
    | next t => rw [Run.advance_of_next h hs]
    | fault f => rw [Run.advance_of_fault h hs]
    | refused q => rw [Run.advance_of_refused h hs]; exact List.prefix_append _ _

theorem Run.refusals_prefix_advanceN (k : Nat) (r : Run) : r.refusals <+: (r.advanceN k).refusals := by
  induction k generalizing r with
  | zero => exact List.prefix_rfl
  | succ k ih => exact r.refusals_prefix_advance.trans (ih r.advance)

theorem Run.markedRefused_iff {r : Run} : r.markedRefused = true ↔ r.refusals ≠ [] := by
  simp [Run.markedRefused]

/-- A run whose record holds a refusal is marked (R228). -/
theorem Run.markedRefused_of_prefix {r : Run} {qs : List RefusalRecord} {q : RefusalRecord}
    (h : qs ++ [q] <+: r.refusals) : r.markedRefused = true :=
  Run.markedRefused_iff.mpr (h.ne_nil (List.concat_ne_nil q qs))

/-- Skipping a refused word writes the feed and the returned result alone (R228). -/
theorem State.skipRefused_frame (s : State) :
    { s.skipRefused with feed := s.feed, returned := s.returned } = s := rfl

end Sys2Proof.Machine
end

section
/-! CERTIFICATES. The statements of spec/60_exceptions.md about faults and refusals. -/

namespace Sys2Proof.Exceptions

open Sys2Proof.Machine

/-- Settles O52: the faulting step runs its word's operation in a state that the issue leaves legal, with
both units armed as they were. -/
theorem onlyReinitialisationFaults : Obligations.OnlyReinitialisationFaults := by
  intro s f hs h
  obtain ⟨i, hw, hexec⟩ := step_fault h
  rcases exec_fault_of_inv (hs.issue _) hexec with ⟨rfl, ha, hf⟩ | ⟨n, rfl, ha, hf⟩
  · exact .inl ⟨hf, ha, hw⟩
  · exact .inr ⟨hf, ha, n, hw⟩

/-- Settles O57: the step that faults writes the record alone, and a run with a recorded fault stays. -/
theorem faultedRunIsFinal : Obligations.FaultedRunIsFinal := by
  intro r f hr h
  have hadv := Run.advance_of_fault hr h
  have hrec : r.advance.fault = some { fault := f, code := f.code, word := r.state.nextWord } := by
    rw [hadv]
  exact ⟨by rw [hadv], hrec, by cases f <;> rfl, fun k => Run.advanceN_of_faulted k hrec⟩

/-- Settles O58: the refused step appends its record, of which every later record is a continuation. -/
theorem refusalMarksTheRun : Obligations.RefusalMarksTheRun := by
  intro r q hr h
  rw [Run.advance_of_refused hr h]
  refine ⟨hr, r.state.skipRefused_frame, fun k => ?_⟩
  have hkept := Run.refusals_prefix_advanceN k { r with
    state := r.state.skipRefused
    refusals := r.refusals ++ [{ refusal := q, word := r.state.nextWord }] }
  exact ⟨Run.markedRefused_of_prefix hkept, hkept⟩

end Sys2Proof.Exceptions
end

section
/-! SUPPORT. `RESET` as an operation (spec/70_reset_and_hazards.md R250): a cleared ring field by field, and
the next state as the reset state with what is kept. -/

namespace Sys2Proof.Machine

@[simp] theorem Ring.cleared_head (r : Ring) : r.cleared.head = 0 := rfl
@[simp] theorem Ring.cleared_tail (r : Ring) : r.cleared.tail = 0 := rfl
@[simp] theorem Ring.cleared_buf (r : Ring) : r.cleared.buf = r.buf := rfl
@[simp] theorem Ring.cleared_ovf (r : Ring) : r.cleared.ovf = 0 := rfl

/-- The state after `RESET` is the reset state of the same configuration, except that both rings keep their
storage (R250) and that the event history and the programs stay (log 16, log 3). -/
theorem exec_reset (s : State) : exec .reset s = .next { State.resetWith s.cfg with
    rx := s.rx.cleared, tx := s.tx.cleared
    events := s.events, returned := some .ok, feed := s.feed } := rfl

end Sys2Proof.Machine
end

section
/-! CERTIFICATES. The statement of spec/70_reset_and_hazards.md about `RESET`. -/

namespace Sys2Proof.ResetAndHazards

open Sys2Proof.Machine

/-- Settles O48: the next state is the reset state but for what `RESET` keeps; that the event history is
kept is the model's choice (log 16). -/
theorem resetPutsEveryRegisterAtItsValue : Obligations.ResetPutsEveryRegisterAtItsValue := by
  refine ⟨issuedAs_of_only rfl fun _ => rfl, fun s => ⟨_, exec_reset s, ?_⟩⟩
  simp [State.resetWith, BitFrame.initial]

end Sys2Proof.ResetAndHazards
end
